-- ==== Sys2Proof/Word.lean ====
section
/-! DEFINITION. The two units of show memory: the byte and the word of eight bytes (spec 00_scope, section 5.3). -/

namespace Sys2Proof

/-- A byte of show memory, of the settings EEPROM or of a colour component. -/
abbrev Byte := BitVec 8

/-- A word of show memory: 8 bytes, two 32-bit pixels, the pixel of the even column first (section 5.3). -/
abbrev Word := BitVec 64

end Sys2Proof
end

