-- ==== Sys2Proof/Config.lean ====
section
/-! DEFINITION. What the manual fixes for the part as numbers, and the one free value it leaves open. -/

namespace Sys2Proof.Config

/-- Bytes of show memory: 512 MiB, so its addresses are 0x0000_0000..0x1FFF_FFFF (section 5.3). -/
def showBytes : Nat := 0x20000000

/-- Tile positions of the part, whatever the profile's tile count (section 3). -/
def tileCount : Nat := 16

/-- Entries of the look-ahead queue (R54). -/
def queueDepth : Nat := 8

/-- Places of the Report Writer's write queue (R52). -/
def writeQueueDepth : Nat := 64

/-- Write-queue places that must be free when a commit attempt begins (R79). -/
def attemptRoom : Nat := 8

/-- Places of one tile's pending switch list (R87). -/
def pendingDepth : Nat := 16

/-- Entries of the showing table (R91). -/
def showingDepth : Nat := 24

/-- Places of the due list (chapter 5, state table). -/
def dueDepth : Nat := 16

/-- BAR1 accesses the host window port holds (R130). -/
def portDepth : Nat := 8

/-- Words of a tile's line buffer as a single lane, and of each lane of a split one (R117). -/
def laneWords : Nat := 1024

/-- Words of each lane of a split line buffer (R117). -/
def splitWords : Nat := 512

/-- A lane holding fewer words than this is urgent (R123). -/
def urgentBelow : Nat := 128

/-- Failed sensor reads in a row that make a fault (R155). -/
def sensorFaultAt : Nat := 8

/-- Frame starts from entering ABSENT, or LOST, to leaving it (R138, R143). -/
def absentFrames : Nat := 60

/-- Frame starts after IDENTIFY by which a descriptor must have come (R139). -/
def trainingFrames : Nat := 30

/-- Bytes of the settings EEPROM (R163). -/
def imageBytes : Nat := 512

/-- The byte the settings EEPROM holds after a byte write that FAILED. R170 says only that the image copy marks the
byte unknown: what the device then holds is a free value, one fresh value for each index (log entry 3). -/
opaque freeByte : Nat → BitVec 8

end Sys2Proof.Config
end

