-- ==== Sys2Proof/Syntax.lean ====
section
/-! DEFINITION. The commands the part takes: one constructor of `Instr` for each row of spec/opcode_table.json,
with the operands the command or event carries from outside the part. -/

namespace Sys2Proof

/-- The two event inputs (chapter 1, section 1.5). -/
inductive EventInput where
  | trigger
  | pulse
deriving DecidableEq, Repr

/-- What a device reset leaves in the EEPROM byte whose write it cuts: erased, reading 0xFF, or the new value (R170). -/
inductive CutByte where
  | erased
  | written
deriving DecidableEq, Repr

/-- A host access through BAR1: a read or a write of 1 to 128 bytes at a show-memory byte address (R130). -/
inductive WindowAccess where
  | read (address length : Nat)
  | write (address : Nat) (data : List Byte)
deriving DecidableEq, Repr

/-- Where a REGISTER_WRITE falls: ARG whole or by halves, one of the two frame registers, or a BAR0 offset that holds
no register (R8, R9, R175). -/
inductive RegisterTarget where
  | argLow
  | argHigh
  | argWhole
  | frameLo
  | frameHi
  | empty (offset : Nat)
deriving DecidableEq, Repr

/-- The contents of a descriptor message: native width and height, latency in frames and model code (section 8.1). -/
structure PanelDescriptor where
  width   : Nat
  height  : Nat
  latency : Nat
  model   : BitVec 16
deriving DecidableEq, Repr

/-- Words of a fetch burst that arrive: the position of their burst among the tile's bursts in flight, oldest first, and
how many of its words arrive (R124). -/
structure Arrival where
  burst : Nat
  count : Nat
deriving DecidableEq, Repr

/-- The steps of the part. A `tile` operand is a tile index 0..15. -/
inductive Instr where
  /-- DEVICE_RESET: power-on, the reset pin or a PCI Express link reset; `cut` says what a byte write cut by it leaves. -/
  | deviceReset (cut : CutByte)
  /-- LOADING_END: the read of the EEPROM ends; `unread` lists the positions whose read was not acknowledged. -/
  | loadingEnd (unread : List Nat)
  /-- ADOPT_PROFILE: a CMD write of code 1, with its persist option (bit 8). -/
  | adoptProfile (persist : Bool)
  | profileRecordReadIssue
  | profileRecordReadDone
  /-- START: a CMD write of code 2. -/
  | start
  /-- REDIRECT: a CMD write of code 3. -/
  | redirect
  /-- RESUME: a CMD write of code 4. -/
  | resume
  /-- STOP: a CMD write of code 5. -/
  | stop
  /-- WALL_RESET: a CMD write of code 6. -/
  | wallReset
  /-- INVALIDATE_STORE: a CMD write of code 7. -/
  | invalidateStore
  /-- CMD_INVALID_CODE: a CMD write whose code names no command. -/
  | cmdInvalidCode (code : BitVec 8)
  /-- ATTN_WRITE: a host write of a value to ATTN. -/
  | attnWrite (value : BitVec 32)
  /-- ATTN_MASK_WRITE: a host write of a value to ATTN_MASK. -/
  | attnMaskWrite (value : BitVec 32)
  | frameLoRead
  /-- REGISTER_WRITE: a write to ARG, FRAME_LO, FRAME_HI or an empty offset; a 32-bit write uses the value's low half. -/
  | registerWrite (target : RegisterTarget) (value : BitVec 64)
  | hostWindowAccess (access : WindowAccess)
  | grantDecision
  | frameStart
  /-- WAIT_LIMIT_SKIP of the event wait whose record stands at `record`. -/
  | waitLimitSkip (record : Nat)
  | commitDecision
  | linkReadReturn
  | graceExpired (tile : Nat)
  | joinComplete (tile : Nat)
  | lostTimeout (tile : Nat)
  | absentIdentify (tile : Nat)
  | trainingTimeout (tile : Nat)
  /-- ECHO: the panel of a tile returns the tag of a frame header. -/
  | echo (tile : Nat) (tag : BitVec 8)
  /-- DESCRIPTOR: the panel of a tile answers an IDENTIFY. -/
  | descriptor (tile : Nat) (panel : PanelDescriptor)
  | linkTakesPixel (tile : Nat)
  | burstArrival (tile : Nat) (words : Arrival)
  | fetchBegin
  | recordWordsArrived
  | departingWriteReceived
  | holdFaultReceived
  | handoffWriteReceived
  | outcomeWriteLanded
  | faultRecordLanded
  | refreshLanded
  | eventInputActive (input : EventInput)
  | eventInputInactive (input : EventInput)
  | filterWidthReached (input : EventInput)
  | ambientPoll
  /-- SENSOR_READING: the two bytes of a read that ended with both received (R152). -/
  | sensorReading (first second : BitVec 8)
  | sensorReadFailure
  | byteWriteDone
  | byteWriteFailed
  /-- MESSAGE_SIGNALLING_CHANGE: the host enables or disables message signalling at the endpoint. -/
  | messageSignallingChange (enabled : Bool)
deriving DecidableEq, Repr

end Sys2Proof
end

