-- ==== Sys2Proof/WellFormed.lean ====
section
/-! DEFINITION. Which commands a sender can form: operands inside the ranges the manual gives their fields. -/

namespace Sys2Proof

/-- A BAR1 access is of 1 to 128 bytes and lies inside the 512 MiB window (R130, section 2 of the introduction). -/
def WindowAccess.wf : WindowAccess → Bool
  | .read a n => decide (1 ≤ n ∧ n ≤ 128 ∧ a + n ≤ Config.showBytes)
  | .write a d => decide (1 ≤ d.length ∧ d.length ≤ 128 ∧ a + d.length ≤ Config.showBytes)

/-- A descriptor gives a native size of 1..4095 each way and a latency of 0..15 frames (section 8.1). -/
def PanelDescriptor.wf (d : PanelDescriptor) : Bool :=
  decide (1 ≤ d.width ∧ d.width ≤ 4095 ∧ 1 ≤ d.height ∧ d.height ≤ 4095 ∧ d.latency ≤ 15)

/-- A BAR0 offset that holds no register (section 12.5). -/
def emptyOffset (offset : Nat) : Bool :=
  decide (offset ∉ [0x00, 0x08, 0x0C, 0x10, 0x14, 0x18, 0x1C])

/-- A CMD code that names a command (section 12.7). -/
def namesCommand (code : BitVec 8) : Bool :=
  decide (1 ≤ code.toNat ∧ code.toNat ≤ 7)

/-- The operands of a command lie in the ranges their fields can carry. -/
def Instr.wf : Instr → Bool
  | .loadingEnd unread => unread.all (fun p => decide (p < Config.imageBytes))
  | .cmdInvalidCode code => !namesCommand code
  | .registerWrite (.empty offset) _ => emptyOffset offset
  | .hostWindowAccess a => a.wf
  | .waitLimitSkip r => decide (r % 64 = 0 ∧ r < Config.showBytes)
  | .graceExpired k => decide (k < Config.tileCount)
  | .joinComplete k => decide (k < Config.tileCount)
  | .lostTimeout k => decide (k < Config.tileCount)
  | .absentIdentify k => decide (k < Config.tileCount)
  | .trainingTimeout k => decide (k < Config.tileCount)
  | .echo k _ => decide (k < Config.tileCount)
  | .descriptor k d => decide (k < Config.tileCount) && d.wf
  | .linkTakesPixel k => decide (k < Config.tileCount)
  | .burstArrival k words => decide (k < Config.tileCount ∧ 1 ≤ words.count ∧ words.count ≤ 16)
  | .deviceReset _ | .adoptProfile _ | .profileRecordReadIssue | .profileRecordReadDone | .start | .redirect
  | .resume | .stop | .wallReset | .invalidateStore | .attnWrite _ | .attnMaskWrite _ | .frameLoRead
  | .registerWrite .argLow _ | .registerWrite .argHigh _ | .registerWrite .argWhole _ | .registerWrite .frameLo _
  | .registerWrite .frameHi _ | .grantDecision | .frameStart | .commitDecision | .linkReadReturn | .fetchBegin
  | .recordWordsArrived | .departingWriteReceived | .holdFaultReceived | .handoffWriteReceived
  | .outcomeWriteLanded | .faultRecordLanded | .refreshLanded | .eventInputActive _ | .eventInputInactive _
  | .filterWidthReached _ | .ambientPoll | .sensorReading _ _ | .sensorReadFailure | .byteWriteDone
  | .byteWriteFailed | .messageSignallingChange _ => true

end Sys2Proof
end

