-- ==== Sys2Proof/Decode.lean ====
section
/-! DEFINITION. Words to commands. The opcode table gives no row any bits, so `decodeTableWord` names no command; the
one word of the part that does name commands is the value written to CMD, read by `decodeCmdWrite`. -/

namespace Sys2Proof

/-- The command a word of the opcode table spells. No row of spec/opcode_table.json carries fixed bits or fields
(98_reader.md: n_rows_with_fixed 0, n_rows_with_fields 0), so no word spells one (log entry 22). -/
def decodeTableWord (_nbits _w : Nat) : Option Instr := none

/-- The command a write of `w` to CMD is: the code in bits 0..7, the persist option in bit 8, bits 9..31 ignored
(section 12.5, R175, R189). -/
def decodeCmdWrite (w : BitVec 32) : Instr :=
  match (w.extractLsb' 0 8).toNat with
  | 1 => .adoptProfile (w.getLsbD 8)
  | 2 => .start
  | 3 => .redirect
  | 4 => .resume
  | 5 => .stop
  | 6 => .wallReset
  | 7 => .invalidateStore
  | _ => .cmdInvalidCode (w.extractLsb' 0 8)

end Sys2Proof
end

