-- ==== Sys2Proof/Machine/State.lean ====
section
/-! DEFINITION. The state of the part, block by block as the manual holds it (introduction, section 3), as plain data,
the reasons a step can stop, and the state right after power-on. -/

namespace Sys2Proof.Machine

/-! ## Why a step stops -/

/-- The part stops with a fault. -/
inductive Fault where
  /-- Raised by HOST_WINDOW_ACCESS for an access that does not lie inside the 512 MiB window: such an address does not
  exist (section 5.3). Safe: no claim about the part's behaviour is made for it. -/
  | outsideShowMemory
deriving DecidableEq, Repr

/-- The command has no meaning. -/
inductive Refusal where
  /-- Raised by `exec` for a command that has not been given its meaning. Safe. -/
  | notModelled (mnemonic : String)
  /-- Raised by CMD_INVALID_CODE for a code that does name a command: that write is another row of the table, so no
  sender forms this command. Safe. -/
  | codeNamesCommand
  /-- Raised by HOST_WINDOW_ACCESS for an access of no bytes or of more than 128, which R130 gives no meaning: no sender
  forms it. Safe. -/
  | malformedAccess
deriving DecidableEq, Repr

/-! ## Frame Timing Generator (chapter 1) -/

/-- The four fields of the show clock, held as last written (R4). -/
structure Clock where
  hours   : Nat
  minutes : Nat
  seconds : Nat
  frame   : Nat
deriving DecidableEq, Repr

/-- An entry of the clock-set list: its visible frame, its field values and the record addresses of its CLOCK cues in
commit order (R6). -/
structure ClockSet where
  visible : Nat
  value   : Clock
  records : List Nat
deriving DecidableEq, Repr

/-- An input filter (R10); QUALIFYING has its elapsed time in milliseconds. -/
inductive Filter where
  | idle
  | qualifying (elapsed : Nat)
  | waitInactive
deriving DecidableEq, Repr

/-- The state of the Frame Timing Generator (chapter 1, state table). Beside the manual's state, `begun` tells that the
present frame's start was taken at a WAIT_LIMIT_SKIP and that its own FRAME_START is still to come (log entry 10). -/
structure Ftg where
  running      : Bool
  frame        : Nat
  clock        : Clock
  clockSets    : List ClockSet
  latch        : BitVec 16
  trigger      : Filter
  pulse        : Filter
  alignPending : Bool
  begun        : Bool
deriving DecidableEq, Repr

/-- The state of the wall as a whole (R178). -/
inductive WallState where
  | loading
  | awaitProfile
  | standby
  | showing
  | stopping
deriving DecidableEq, Repr

/-! ## Profile (R167) -/

inductive AmbientMode where
  | auto
  | forceStreet
  | forceDusk
deriving DecidableEq, Repr

/-- A colour or a pixel: its R, G and B components (section 5.3). -/
structure Rgb where
  r : Byte
  g : Byte
  b : Byte
deriving DecidableEq, Repr

/-- The adopted profile. `block` is the profile block as adopted, bytes 8..103 of the profile record (section 12.3),
which a profile write puts into the settings image; `sizes` gives width and height of tiles 0..15. -/
structure Profile where
  tiles         : Nat
  rate          : Nat
  lmax          : Nat
  grace         : Nat
  lateWindow    : Nat
  budget        : Nat
  plateTable    : Nat
  statusPage    : Nat
  ambientMode   : AmbientMode
  confirm       : Nat
  upThreshold   : Nat
  downThreshold : Nat
  duskScale     : Nat
  triggerWidth  : Nat
  pulseWidth    : Nat
  pulseAlign    : Bool
  idleFill      : Rgb
  sizes         : List (Nat × Nat)
  block         : List Byte
deriving DecidableEq, Repr

/-! ## Chain Follower (chapter 3) -/

inductive FollowState where
  | idle
  | fetching
  | full
  | waitReuse
  | awaitLink
  | hold
deriving DecidableEq, Repr

inductive HoldPosition where
  | record
  | link
deriving DecidableEq, Repr

inductive HoldReason where
  | address
  | marker
  | length
  | count
  | link
  | stale
deriving DecidableEq, Repr

/-- The one read the Chain Follower has outstanding (R33). A record fetch holds the bytes its first request brought
(none before it has arrived) and the bytes of the request now granted, `none` while that request waits at the Memory
Arbiter; a link read likewise. -/
inductive Fetch where
  | record (address : Nat) (arrived : List Byte) (granted : Option (List Byte))
  | link (address : Nat) (granted : Option Word)
deriving DecidableEq, Repr

/-- The state of the Chain Follower (R33). The follow address may be any 64-bit value of ARG in an ADDRESS hold. -/
structure Follower where
  state    : FollowState
  follow   : Nat
  position : HoldPosition
  reason   : Option HoldReason
  fetch    : Option Fetch
deriving DecidableEq, Repr

/-! ## Cue Scheduler (chapter 4) -/

inductive StartMode where
  | after
  | atTime
  | onTrigger
  | onPulse
deriving DecidableEq, Repr

inductive Transition where
  | cut
  | fade (n : Nat)
deriving DecidableEq, Repr

/-- A SCENE element: tile, plate index, origin and optional fill colour (section 12.1). -/
structure Assignment where
  tile  : Nat
  plate : Nat
  x0    : Nat
  y0    : Nat
  fill  : Option Rgb
deriving DecidableEq, Repr

/-- A TRIM element: tile and the codes its mask shows present (section 12.1). -/
structure TrimEntry where
  tile   : Nat
  street : Option Nat
  dusk   : Option Nat
deriving DecidableEq, Repr

/-- The kind of a cue with its kind body (R55). -/
inductive CueBody where
  | scene (assignments : List Assignment)
  | trim (entries : List TrimEntry)
  | clock (value : Clock)
  | mark (tag : BitVec 32)
deriving DecidableEq, Repr

/-- The snapshot of an accepted record (R55). -/
structure Cue where
  record     : Nat
  body       : CueBody
  mode       : StartMode
  keep       : Bool
  extend     : Bool
  persist    : Bool
  dwell      : Nat
  transition : Transition
  slack      : Nat
  waitLimit  : Nat
  atTime     : Clock
deriving DecidableEq, Repr

/-- Why a departing entry leaves, and so which write it is owed (R73). -/
inductive Departure where
  | noTrigger
  | withdrawn
deriving DecidableEq, Repr

/-- An entry of the look-ahead queue: the snapshot with its stored working fields (R55). V_eff, slip, the derived V and
the armed flag are values of these and of the rest of the state (R60, R67) and are computed (log entry 27).
`clockAhead` and `clockFrame` are the CLOCK cues an AT entry waits for (R65): the records still in the queue, and the
latest visible frame of the committed ones. `attemptable` tells that the entry was in the queue at the last frame start
(R78). `eventFrame` is the derived V an event gave (R68). -/
structure Entry where
  cue         : Cue
  slackUsed   : Nat
  target      : Option Int
  late        : Bool
  eventFrame  : Option Nat
  clockAhead  : List Nat
  clockFrame  : Option Nat
  departing   : Option Departure
  attemptable : Bool
deriving DecidableEq, Repr

/-- A cue pass: record address and pass number (R91). -/
structure PassId where
  record : Nat
  pass   : BitVec 32
deriving DecidableEq, Repr

/-- The last committed scene (chapter 4, state table); `dwellEnd` is `none` when open. -/
structure LastScene where
  id       : PassId
  visible  : Nat
  dwell    : Nat
  dwellEnd : Option Nat
  extend   : Bool
deriving DecidableEq, Repr

/-- The state of the Cue Scheduler (chapter 4, state table). -/
structure Scheduler where
  queue     : List Entry
  anchor    : Nat
  lastScene : Option LastScene
  lastFrame : Option Nat
deriving DecidableEq, Repr

/-! ## Switches and scan contexts (chapters 5 and 6) -/

inductive LevelSet where
  | street
  | dusk
deriving DecidableEq, Repr

/-- A plate descriptor snapshot: word address of the base, width, height and stride in words (R23). -/
structure Snapshot where
  base   : Nat
  width  : Nat
  height : Nat
  stride : Nat
deriving DecidableEq, Repr

/-- A content record: plate snapshot or none, origin, fill, and the geometry values computed when it is taken (R100).
A fill of `none` is the profile's idle fill (R29, R30). -/
structure Content where
  plate : Option Snapshot
  x0    : Nat
  y0    : Nat
  fill  : Option Rgb
  cIn   : Nat
  rIn   : Nat
  words : Nat
deriving DecidableEq, Repr

/-- What a switch carries (R87). -/
inductive SwitchBody where
  | scene (plate : Snapshot) (x0 y0 : Nat) (fill : Option Rgb) (transition : Transition) (cue : PassId)
  | trim (street dusk : Option Nat)
  | level (set : LevelSet)
deriving DecidableEq, Repr

/-- An entry of a pending switch list with its switch frame (R87). -/
structure Switch where
  frame : Nat
  body  : SwitchBody
deriving DecidableEq, Repr

/-- A fade in progress (R100). `oldCue` is the cue pass whose switch gave the old content, none for a content without a
plate: R24 and R93 speak of the snapshots that a scan context holds through a cue (log entry 39). -/
structure Fade where
  old    : Content
  new    : Content
  n      : Nat
  step   : Nat
  oldCue : Option PassId
deriving DecidableEq, Repr

/-- A tile's scan context (R100). -/
structure Scan where
  current : Content
  fade    : Option Fade
  street  : Nat
  dusk    : Nat
  set     : LevelSet
  cue     : Option PassId
deriving DecidableEq, Repr

/-! ## Fetch engine and line buffer (chapter 7) -/

/-- A word held in a lane, with the tile row it belongs to. -/
structure LaneWord where
  row  : Nat
  data : Word
deriving DecidableEq, Repr

/-- One lane of a line buffer (R117). `underran` tells that an underrun was taken in the present send row (R125). -/
structure Lane where
  content   : Content
  words     : List LaneWord
  fetchRow  : Nat
  remainder : Nat
  lastPixel : Option Rgb
  underran  : Bool
deriving DecidableEq, Repr

inductive LaneId where
  | old
  | main
deriving DecidableEq, Repr

/-- A granted fetch burst not yet wholly arrived: its lane, the tile row it is for, its words still to arrive as show
memory held them when the burst was performed, and whether it is stale (R124). -/
structure Burst where
  lane  : LaneId
  row   : Nat
  words : List Word
  stale : Bool
deriving DecidableEq, Repr

/-- A fetch engine (R117). `main` is the single lane, or the new lane of the split arrangement; the arrangement is split
exactly when `old` is some. The send row and column are the same for both lanes. -/
structure Engine where
  main      : Lane
  old       : Option Lane
  active    : Bool
  sendRow   : Nat
  sendCol   : Nat
  underruns : Nat
  flight    : List Burst
deriving DecidableEq, Repr

/-! ## Tile Link Controller (chapter 8) -/

inductive LinkState where
  | absent
  | training
  | misfit
  | joining
  | inStep
  | lost
deriving DecidableEq, Repr

/-- A frame header: tag and IDENTIFY request (section 8.1). -/
structure Header where
  tag      : Byte
  identify : Bool
deriving DecidableEq, Repr

/-- A Tile Link Controller (section 8.2, state table). Beside the manual's state: `startState` is the link state at the
present frame's start, which R135, R136 and R141 refer to; `echoes` are the tags received in the present frame (R136);
`identifyDue` is an IDENTIFY owed to the next header; `stepped` tells that the controller has taken its action of the
coming frame start (log entry 9); `header` and `sent` are the last header and the last pixel sent downstream, and
`blackRow` and `blackCol` the next position of a black frame (R135; log entry 30). -/
structure Link where
  state       : LinkState
  descriptor  : Option PanelDescriptor
  timer       : Nat
  joinCount   : Nat
  missRun     : Nat
  missCount   : Nat
  startState  : LinkState
  echoes      : List Byte
  identifyDue : Bool
  stepped     : Bool
  header      : Option Header
  sent        : Option Rgb
  blackRow    : Nat
  blackCol    : Nat
deriving DecidableEq, Repr

/-- A tile column: Tile Scanner, fetch engine, Tile Link Controller, and the Commit Unit's pending switch list and stop
slot of the tile (the stop switch's frame). -/
structure Tile where
  scan     : Scan
  engine   : Engine
  link     : Link
  switches : List Switch
  stopAt   : Option Nat
deriving DecidableEq, Repr

/-! ## Commit Unit (chapter 5) -/

/-- A showing-table entry (R91); `dwellEnd` is `none` when open. -/
structure ShowEntry where
  id         : PassId
  visible    : Nat
  dwellEnd   : Option Nat
  held       : List Nat
  shown      : Bool
  degraded   : Bool
  clipped    : Bool
  overBudget : Bool
  keep       : Bool
deriving DecidableEq, Repr

/-- A due-list entry (R88). `body` carries the kind, a MARK's tag and a TRIM's entries; `pass` its commit-count value. -/
structure DueEntry where
  record  : Nat
  pass    : BitVec 32
  body    : CueBody
  keep    : Bool
  visible : Nat
  slip    : Nat
  late    : Bool
  persist : Bool
deriving DecidableEq, Repr

/-- The Ambient Unit's set change waiting for room (R89). -/
structure LevelRequest where
  set     : LevelSet
  visible : Nat
deriving DecidableEq, Repr

inductive PlateState where
  | empty
  | loading
  | ready
  | other
deriving DecidableEq, Repr

/-- A plate-table entry as read (R18). -/
structure PlateEntry where
  state  : PlateState
  base   : Nat
  width  : Nat
  height : Nat
  stride : Nat
deriving DecidableEq, Repr

/-- The commit attempt of a SCENE being decided (R79, R80): the record attempted, the plate indexes still to read, in
order of first appearance, and the entries read. -/
structure Attempt where
  record : Nat
  toRead : List Nat
  plates : List (Nat × PlateEntry)
deriving DecidableEq, Repr

inductive SkipReason where
  | notReady
  | noTrigger
deriving DecidableEq, Repr

inductive RefuseReason where
  | badTime
  | dupTile
  | badTile
  | badPlate
  | badKind
deriving DecidableEq, Repr

/-- An outcome write, by kind (R50, R187). `keepShown` is the SHOWN write of a KEEP record that is not a scene. -/
inductive OutcomeKind where
  | queued
  | committed (visible slip : Nat) (late : Bool)
  | sceneShown (degraded clipped overBudget : Bool)
  | keepShown (visible slip : Nat) (late persistRefused : Bool)
  | done (visible slip : Nat) (late persistRefused : Bool)
  | skipped (reason : SkipReason) (slip : Nat)
  | refused (reason : RefuseReason)
  | released
  | withdrawn
deriving DecidableEq, Repr

structure OutcomeWrite where
  record : Nat
  kind   : OutcomeKind
deriving DecidableEq, Repr

/-- The state of the Commit Unit but for the per-tile lists (chapter 5, state table). -/
structure CommitUnit where
  showing      : List ShowEntry
  due          : List DueEntry
  levelRequest : Option LevelRequest
  commitCount  : BitVec 32
  attempt      : Option Attempt
  handoff      : List OutcomeWrite
  stopFrame    : Option Nat
deriving DecidableEq, Repr

/-! ## Memory Arbiter and host window port (chapter 7) -/

/-- The arbiter's two pointers (R128). -/
structure Arbiter where
  urgentPtr : Nat
  otherPtr  : Nat
deriving DecidableEq, Repr

/-- One burst of a BAR1 access, inside one aligned 128-byte block (R130). -/
inductive AccessPart where
  | read (address length : Nat)
  | write (address : Nat) (data : List Byte)
deriving DecidableEq, Repr

/-- A BAR1 access in the port: the bursts not yet granted and the bytes its reads have returned. -/
structure PortAccess where
  parts : List AccessPart
  got   : List Byte
deriving DecidableEq, Repr

/-- The host window port (R130): up to 8 accesses, the accesses the endpoint has not yet been able to pass to it (log
entry 19), and the data of the last BAR1 read carried. -/
structure HostPort where
  accesses : List PortAccess
  backlog  : List WindowAccess
  readData : List Byte
deriving DecidableEq, Repr

/-! ## Ambient Unit (chapter 9) -/

inductive SensorStatus where
  | noReading
  | good
  | fault
deriving DecidableEq, Repr

/-- The state of the Ambient Unit (section 9.1, state table). A read in flight has its elapsed time in milliseconds. -/
structure AmbientUnit where
  polling  : Bool
  inFlight : Option Nat
  history  : List Nat
  average  : Option Nat
  level    : LevelSet
  confirm  : Nat
  failures : Nat
  status   : SensorStatus
deriving DecidableEq, Repr

/-! ## Settings Store Controller (chapter 10) -/

inductive StoreState where
  | loading
  | idle
  | writing
deriving DecidableEq, Repr

inductive JobKind where
  | trim
  | profile
  | invalidate
deriving DecidableEq, Repr

inductive JobOutcome where
  | done
  | failed
  | noImage
deriving DecidableEq, Repr

/-- A job with its remaining byte writes, the one in progress first (R163, R170). -/
structure Job where
  kind   : JobKind
  writes : List (Nat × Byte)
deriving DecidableEq, Repr

/-- The state of the Settings Store Controller (R163), with the EEPROM it owns (introduction, section 3). -/
structure Store where
  eeprom : List Byte
  state  : StoreState
  image  : List (Option Byte)
  valid  : Bool
  job    : Option Job
  result : Option (JobKind × JobOutcome)
deriving DecidableEq, Repr

/-! ## Report Writer (chapters 3 and 11) -/

inductive FaultKind where
  | address
  | marker
  | count
  | length
  | link
  | stale
  | badKind
  | badTime
  | badTile
  | dupTile
  | badPlate
deriving DecidableEq, Repr

/-- A fault record to be written (R184); `hold` tells a hold from a refusal. -/
structure FaultRecord where
  kind    : FaultKind
  hold    : Bool
  address : BitVec 32
  frame   : Nat
  detail  : BitVec 64
deriving DecidableEq, Repr

/-- What a refresh reports of one tile (R182). `dwellEnd` is 0 for no current cue and `none` for an open dwell. -/
structure TileReport where
  link       : LinkState
  set        : LevelSet
  descriptor : Option PanelDescriptor
  missCount  : Nat
  underruns  : Nat
  cue        : Option Nat
  dwellEnd   : Option Nat
deriving DecidableEq, Repr

/-- The snapshot a status page refresh carries (R182). -/
structure PageSnapshot where
  frame    : Nat
  wall     : WallState
  follower : FollowState
  follow   : Nat
  clock    : Clock
  average  : Nat
  level    : LevelSet
  sensor   : SensorStatus
  handback : BitVec 32
  tag      : BitVec 32
  result   : Option (JobKind × JobOutcome)
  skipped  : BitVec 32
  tiles    : List TileReport
deriving DecidableEq, Repr

/-- An item of the write queue. An outcome or fault write is `granted` from its grant until it lands; a refresh counts
the bursts granted, and knows whether it carries a tag or store result not carried before (R182). -/
inductive QueueItem where
  | outcome (write : OutcomeWrite) (granted : Bool)
  | fault (record : FaultRecord) (granted : Bool)
  | refresh (page : PageSnapshot) (bursts : Nat) (newTag newResult : Bool)
deriving DecidableEq, Repr

/-- The state of the Report Writer (section 11.6). `holdFaults` are fault records of holds waiting to be received (R52);
`tagNew` and `resultNew` tell that a tag or store result has not yet been carried by a refresh (R182). -/
structure Report where
  queue      : List QueueItem
  holdFaults : List FaultRecord
  handback   : BitVec 32
  tag        : BitVec 32
  skipped    : BitVec 32
  tagNew     : Bool
  resultNew  : Bool
deriving DecidableEq, Repr

/-! ## Register Window (chapter 11) -/

inductive Result where
  | accepted
  | busy
  | done
  | refusedState
  | refusedBusy
  | refusedLocked
  | refusedInvalid
deriving DecidableEq, Repr

/-- A command record: code as written and result (R176). -/
structure CmdRecord where
  code   : Byte
  result : Result
deriving DecidableEq, Repr

/-- How far an ADOPT_PROFILE taken has come: waiting for BAR1 accesses received before it, its read presented, or its
read granted with the bytes read (R168). -/
inductive AdoptPhase where
  | behindHost (ahead : Nat)
  | presented
  | granted (data : List Byte)
deriving DecidableEq, Repr

/-- An ADOPT_PROFILE at work: its persist option, its copy of ARG, and its phase (R168, R175). -/
structure Adoption where
  persist : Bool
  arg     : BitVec 64
  phase   : AdoptPhase
deriving DecidableEq, Repr

/-- The Register Window (section 11.6). `readData` is the value of the last FRAME_LO read; `resetTaken` tells that a
WALL_RESET has been taken since the last frame start (R101); `signalling` is the endpoint's message signalling and
`messages` counts the interrupt messages sent (R181). -/
structure Window where
  main       : Option CmdRecord
  side       : Option CmdRecord
  arg        : BitVec 64
  attn       : BitVec 9
  mask       : BitVec 9
  wall       : WallState
  adoption   : Option Adoption
  resetTaken : Bool
  readData   : BitVec 32
  signalling : Bool
  messages   : Nat
deriving DecidableEq, Repr

/-- The levels of the event inputs at the pins (section 1.5). -/
structure Pins where
  trigger : Bool
  pulse   : Bool
deriving DecidableEq, Repr

/-! ## The whole part -/

/-- The state of the part. `mem` is show memory as written (only bytes that differ from what an unlisted address reads
as); `freeIndex` counts the free values used (log entry 3); `pending` are the commands waiting, first in, first out. -/
structure State where
  mem       : List Host.Cell
  profile   : Option Profile
  ftg       : Ftg
  follower  : Follower
  scheduler : Scheduler
  commit    : CommitUnit
  tiles     : List Tile
  arbiter   : Arbiter
  port      : HostPort
  ambient   : AmbientUnit
  store     : Store
  report    : Report
  window    : Window
  pins      : Pins
  freeIndex : Nat
  pending   : List Instr
deriving DecidableEq, Repr

/-! ## Reset values -/

/-- R16. -/
def Ftg.reset : Ftg :=
  { running := false, frame := 0, clock := ⟨0, 0, 0, 0⟩, clockSets := [], latch := 0,
    trigger := .idle, pulse := .idle, alignPending := false, begun := false }

/-- R48. -/
def Follower.reset : Follower :=
  { state := .idle, follow := 0, position := .record, reason := none, fetch := none }

/-- R77. -/
def Scheduler.reset : Scheduler :=
  { queue := [], anchor := 0, lastScene := none, lastFrame := none }

/-- R99. -/
def CommitUnit.reset : CommitUnit :=
  { showing := [], due := [], levelRequest := none, commitCount := 0, attempt := none, handoff := [],
    stopFrame := none }

/-- The content with no plate: idle fill at every position (R30). Its origin, which the manual gives no value and nothing
reads, is 0, 0 (DESIGN CHOICE, log entry 26). -/
def Content.noPlate : Content :=
  { plate := none, x0 := 0, y0 := 0, fill := none, cIn := 0, rIn := 0, words := 0 }

/-- R115. -/
def Scan.reset : Scan :=
  { current := .noPlate, fade := none, street := 16, dusk := 16, set := .street, cue := none }

/-- A lane with no words and nothing to fetch (R133). -/
def Lane.empty : Lane :=
  { content := .noPlate, words := [], fetchRow := 0, remainder := 0, lastPixel := none, underran := false }

/-- R133. -/
def Engine.reset : Engine :=
  { main := .empty, old := none, active := false, sendRow := 0, sendCol := 0, underruns := 0, flight := [] }

/-- R149. -/
def Link.reset : Link :=
  { state := .absent, descriptor := none, timer := 0, joinCount := 0, missRun := 0, missCount := 0,
    startState := .absent, echoes := [], identifyDue := false, stepped := false, header := none, sent := none,
    blackRow := 0, blackCol := 0 }

/-- A tile column after a device reset (R99, R115, R133, R149). -/
def Tile.reset : Tile :=
  { scan := .reset, engine := .reset, link := .reset, switches := [], stopAt := none }

/-- R134. -/
def Arbiter.reset : Arbiter := { urgentPtr := 15, otherPtr := 15 }

/-- R160. -/
def AmbientUnit.reset : AmbientUnit :=
  { polling := false, inFlight := none, history := [], average := none, level := .street, confirm := 0,
    failures := 0, status := .noReading }

/-- R174: the controller is LOADING, over an EEPROM holding `eeprom`. What the image copy and image valid hold until
loading ends the manual leaves open: 512 unknown bytes, and not valid (DESIGN CHOICE, log entry 43). -/
def Store.loading (eeprom : List Byte) : Store :=
  { eeprom, state := .loading, image := List.replicate Config.imageBytes none, valid := false, job := none,
    result := none }

/-- R185. -/
def Report.reset : Report :=
  { queue := [], holdFaults := [], handback := 0, tag := 0, skipped := 0, tagNew := false, resultNew := false }

/-- The state right after power-on. Every block has its device-reset values; show memory lists nothing (log entry 1),
the EEPROM is erased (log entry 2), message signalling is enabled (log entry 4), the inputs are inactive (log entry 18),
and nothing has yet left the part (log entry 5). -/
def State.reset : State :=
  { mem := [], profile := none, ftg := .reset, follower := .reset, scheduler := .reset, commit := .reset,
    tiles := List.replicate Config.tileCount .reset, arbiter := .reset,
    port := { accesses := [], backlog := [], readData := [] }, ambient := .reset,
    store := .loading (List.replicate Config.imageBytes 0xFF), report := .reset,
    window := { main := none, side := none, arg := 0, attn := 0, mask := 0, wall := .loading, adoption := none,
                resetTaken := false, readData := 0, signalling := true, messages := 0 },
    pins := { trigger := false, pulse := false }, freeIndex := 0, pending := [] }

end Sys2Proof.Machine
end

