-- ==== Sys2Proof/Machine/Ops.lean ====
section
/-! DEFINITION. The shared operations on show memory, byte order, and the parts of the state. -/

namespace Sys2Proof.Machine

/-! ## Show memory -/

/-- What an address that memory does not list reads as. The manual leaves show memory undefined after power-up (R32):
the model takes 0 (DESIGN CHOICE, log entry 1). -/
def Memory.unlisted (_address : Nat) : Byte := 0

/-- The byte at an address of show memory. -/
def Memory.read (m : List Host.Cell) (a : Nat) : Byte :=
  match m with
  | [] => Memory.unlisted a
  | (b, v) :: rest => if b = a then v else Memory.read rest a

/-- Show memory with one byte written, in canonical form. -/
def Memory.write (m : List Host.Cell) (a : Nat) (v : Byte) : List Host.Cell :=
  match m with
  | [] => if v = Memory.unlisted a then [] else [(a, v)]
  | (b, w) :: rest =>
    if a < b then (if v = Memory.unlisted a then (b, w) :: rest else (a, v) :: (b, w) :: rest)
    else if a = b then (if v = Memory.unlisted a then rest else (a, v) :: rest)
    else (b, w) :: Memory.write rest a v

/-- The canonical form of show memory: addresses strictly rising, no entry equal to what an unlisted address reads. -/
def Memory.wf : List Host.Cell → Bool
  | [] => true
  | (a, v) :: rest =>
    decide (v ≠ Memory.unlisted a) && (match rest with | [] => true | (b, _) :: _ => decide (a < b)) && Memory.wf rest

/-- `n` bytes from an address upward. -/
def Memory.readBytes (m : List Host.Cell) (a n : Nat) : List Byte :=
  (List.range n).map (fun i => Memory.read m (a + i))

/-- Show memory with a run of bytes written from an address upward. -/
def Memory.writeBytes (m : List Host.Cell) (a : Nat) : List Byte → List Host.Cell
  | [] => m
  | b :: rest => Memory.writeBytes (Memory.write m a b) (a + 1) rest

/-- Multi-byte fields are little-endian (section 5.3): the number a run of bytes holds. -/
def leNat : List Byte → Nat
  | [] => 0
  | b :: rest => b.toNat + 256 * leNat rest

/-- The `n` little-endian bytes of a number, higher bits dropped. -/
def leBytes : Nat → Nat → List Byte
  | 0, _ => []
  | n + 1, v => BitVec.ofNat 8 v :: leBytes n (v / 256)

/-- The little-endian field of `n` bytes at an offset. -/
def leAt (bytes : List Byte) (offset n : Nat) : Nat := leNat ((bytes.drop offset).take n)

/-- The byte at an offset, as a number; 0 past the end. -/
def byteAt (bytes : List Byte) (offset : Nat) : Nat := (bytes.getD offset 0).toNat

/-- `n` bits of a number from bit `low` up. -/
def bitField (v low n : Nat) : Nat := v / 2 ^ low % 2 ^ n

/-- The word of show memory at a word address. -/
def Memory.readWord (m : List Host.Cell) (wordAddress : Nat) : Word :=
  BitVec.ofNat 64 (leNat (Memory.readBytes m (8 * wordAddress) 8))

/-! ## Parts of the state -/

def State.setMem (s : State) (m : List Host.Cell) : State := { s with mem := m }
def State.setProfile (s : State) (p : Option Profile) : State := { s with profile := p }
def State.setFtg (s : State) (f : Ftg) : State := { s with ftg := f }
def State.setFollower (s : State) (f : Follower) : State := { s with follower := f }
def State.setScheduler (s : State) (c : Scheduler) : State := { s with scheduler := c }
def State.setCommit (s : State) (c : CommitUnit) : State := { s with commit := c }
def State.setTiles (s : State) (t : List Tile) : State := { s with tiles := t }
def State.setArbiter (s : State) (a : Arbiter) : State := { s with arbiter := a }
def State.setPort (s : State) (p : HostPort) : State := { s with port := p }
def State.setAmbient (s : State) (a : AmbientUnit) : State := { s with ambient := a }
def State.setStore (s : State) (c : Store) : State := { s with store := c }
def State.setReport (s : State) (r : Report) : State := { s with report := r }
def State.setWindow (s : State) (w : Window) : State := { s with window := w }
def State.setPins (s : State) (p : Pins) : State := { s with pins := p }
def State.setFreeIndex (s : State) (n : Nat) : State := { s with freeIndex := n }
def State.setPending (s : State) (q : List Instr) : State := { s with pending := q }

/-- The profile in force; before adoption no profile is held, and every field reads as 0 or off. -/
def State.prof (s : State) : Profile :=
  s.profile.getD
    { tiles := 0, rate := 0, lmax := 0, grace := 0, lateWindow := 0, budget := 0, plateTable := 0, statusPage := 0,
      ambientMode := .auto, confirm := 0, upThreshold := 0, downThreshold := 0, duskScale := 0, triggerWidth := 0,
      pulseWidth := 0, pulseAlign := false, idleFill := ⟨0, 0, 0⟩, sizes := [], block := [] }

/-- The commit horizon H = Lmax + 1 (section 5.2). -/
def State.horizon (s : State) : Nat := s.prof.lmax + 1

/-- The current frame number (section 5.1). -/
def State.now (s : State) : Nat := s.ftg.frame

/-- The profile's expected width and height of a tile (R25). -/
def Profile.size (p : Profile) (k : Nat) : Nat × Nat := p.sizes.getD k (0, 0)

/-- Tile column k. -/
def State.tile (s : State) (k : Nat) : Tile := s.tiles.getD k .reset

/-- The state with tile column k changed; no change when there is no such tile. -/
def State.setTile (s : State) (k : Nat) (t : Tile) : State := s.setTiles (s.tiles.set k t)

/-- One tile column changed by a function, the others kept. -/
def State.updTile (s : State) (k : Nat) (f : Tile → Tile) : State := s.setTile k (f (s.tile k))

/-- A link that carries content, so that the tile has a current latency (R86, R137). -/
def LinkState.carries : LinkState → Bool
  | .joining | .inStep => true
  | .absent | .training | .misfit | .lost => false

/-- The tile's current latency L_k, none unless its link is in JOINING or IN_STEP (R86, R137). -/
def Link.latency (l : Link) : Option Nat :=
  if l.state.carries then l.descriptor.map (·.latency) else none

/-- The switch frame of a switch with visible frame V: V − L_k, or V − Lmax without a current latency (R86). -/
def State.switchFrame (s : State) (k visible : Nat) : Nat :=
  visible - ((s.tile k).link.latency.getD s.prof.lmax)

/-- A fold over the sixteen tile indexes in ascending order. -/
def forTiles (n : Nat) (f : Nat → State → State) (s : State) : State :=
  (List.range n).foldl (fun s k => f k s) s

end Sys2Proof.Machine
end

