-- ==== Sys2Proof/Machine/Flags.lean ====
section
/-! DEFINITION. The flags the part computes: the attention flags and the interrupt message, the condition of DRY, slip
and its saturation, and the validity of plate-table entries and addresses. -/

namespace Sys2Proof.Machine

/-- The nine attention causes (R180). -/
inductive Cause where
  | final
  | mark
  | hold
  | dry
  | tile
  | underrun
  | ambient
  | store
  | fault
deriving DecidableEq, Repr

/-- The bit of a cause in ATTN and ATTN_MASK (section 12.7). -/
def Cause.bit : Cause → Nat
  | .final => 0
  | .mark => 1
  | .hold => 2
  | .dry => 3
  | .tile => 4
  | .underrun => 5
  | .ambient => 6
  | .store => 7
  | .fault => 8

/-- A 9-bit value with one cause's bit set. -/
def Cause.mask (c : Cause) : BitVec 9 := BitVec.ofNat 9 (2 ^ c.bit)

/-- Some flag is both set and enabled (R181). -/
def Window.attending (w : Window) : Bool := decide (w.attn &&& w.mask ≠ 0)

/-- The register window after a change of ATTN or ATTN_MASK: one interrupt message goes out when the set of flags both
set and enabled goes from empty to not empty, unless message signalling is disabled (R181). -/
def Window.signal (before after : Window) : Window :=
  if !before.attending && after.attending && after.signalling then { after with messages := after.messages + 1 }
  else after

/-- A cause is raised: its flag is set, whatever the mask, and the message of R181 follows (R180). -/
def raise (c : Cause) (s : State) : State :=
  s.setWindow (s.window.signal { s.window with attn := s.window.attn ||| c.mask })

/-- A flag of ATTN. -/
def State.flag (s : State) (c : Cause) : Bool := decide (s.window.attn &&& c.mask ≠ 0)

/-- The condition of DRY: the Chain Follower is in AWAIT_LINK and the look-ahead queue is empty (R44). -/
def State.dry (s : State) : Bool := decide (s.follower.state = .awaitLink) && s.scheduler.queue.isEmpty

/-- DRY is raised when its condition begins to hold in a step from `before` to `after` (R44). -/
def dryEdge (before after : State) : State :=
  if !before.dry && after.dry then raise .dry after else after

/-- A slip saturates at 65,535 and is never negative (R62). -/
def saturateSlip (v : Int) : Nat := min v.toNat 65535

/-- A 16-bit count that saturates at 65,535 (R127, R142). -/
def saturate16 (n : Nat) : Nat := min n 65535

/-- A record or profile address that may not be followed: 0, not a multiple of 64, or 0x2000_0000 or above (R34, R168). -/
def badAddress (a : Nat) : Bool := decide (a = 0 ∨ a % 64 ≠ 0 ∨ Config.showBytes ≤ a)

/-- A link that may not be followed: neither 0 nor a multiple of 64 below 0x2000_0000 (R37 check 5). -/
def badLink (a : Nat) : Bool := decide (a ≠ 0) && badAddress a

/-- The geometry checks of R20 on a LOADING or READY entry; the base's three lowest bits are ignored (R18). -/
def PlateEntry.fits (e : PlateEntry) : Bool :=
  decide (1 ≤ e.stride ∧ 1 ≤ e.width ∧ e.width ≤ 4096 ∧ 1 ≤ e.height ∧ e.height ≤ 4096 ∧
    (e.width + 1) / 2 ≤ e.stride ∧ 8 * (e.base / 8) + e.height * e.stride * 8 ≤ Config.showBytes)

/-- An entry is invalid when its state code names no state, or a LOADING or READY entry fails R20 (R19). -/
def PlateEntry.invalid (e : PlateEntry) : Bool :=
  match e.state with
  | .empty => false
  | .loading | .ready => !e.fits
  | .other => true

/-- An entry whose plate may be shown (R19). -/
def PlateEntry.isReady (e : PlateEntry) : Bool :=
  match e.state with
  | .ready => e.fits
  | .empty | .loading | .other => false

end Sys2Proof.Machine
end

