-- ==== Sys2Proof/Machine/Operands.lean ====
section
/-! DEFINITION. The formats of chapter 12: what the part reads from records, plate-table entries, profiles and settings
images, and the bytes its own writes put into show memory and registers. -/

namespace Sys2Proof.Machine

/-! ## Encodings (section 12.7) -/

def Departure.outcome : Departure → OutcomeKind
  | .noTrigger => .skipped .noTrigger 0
  | .withdrawn => .withdrawn

def SkipReason.code : SkipReason → Nat
  | .notReady => 1
  | .noTrigger => 2

def RefuseReason.code : RefuseReason → Nat
  | .badTime => 3
  | .dupTile => 4
  | .badTile => 5
  | .badPlate => 6
  | .badKind => 7

/-- The outcome state a write sets (section 12.7). -/
def OutcomeKind.code : OutcomeKind → Nat
  | .queued => 1
  | .committed _ _ _ => 2
  | .sceneShown _ _ _ => 3
  | .keepShown _ _ _ _ => 3
  | .released => 4
  | .done _ _ _ _ => 5
  | .skipped _ _ => 6
  | .refused _ => 7
  | .withdrawn => 8

/-- The final states (R52): the record is handed back when one lands. -/
def OutcomeKind.isFinal : OutcomeKind → Bool
  | .released | .done _ _ _ _ | .skipped _ _ | .refused _ | .withdrawn => true
  | .queued | .committed _ _ _ | .sceneShown _ _ _ | .keepShown _ _ _ _ => false

def FaultKind.code : FaultKind → Nat
  | .address => 1
  | .marker => 2
  | .count => 3
  | .length => 4
  | .link => 5
  | .stale => 6
  | .badKind => 17
  | .badTime => 18
  | .badTile => 19
  | .dupTile => 20
  | .badPlate => 21

def HoldReason.fault : HoldReason → FaultKind
  | .address => .address
  | .marker => .marker
  | .length => .length
  | .count => .count
  | .link => .link
  | .stale => .stale

def RefuseReason.fault : RefuseReason → FaultKind
  | .badTime => .badTime
  | .dupTile => .dupTile
  | .badTile => .badTile
  | .badPlate => .badPlate
  | .badKind => .badKind

def WallState.code : WallState → Nat
  | .loading => 0
  | .awaitProfile => 1
  | .standby => 2
  | .showing => 3
  | .stopping => 4

def FollowState.code : FollowState → Nat
  | .idle => 0
  | .fetching => 1
  | .full => 2
  | .waitReuse => 3
  | .awaitLink => 4
  | .hold => 5

def LinkState.code : LinkState → Nat
  | .absent => 0
  | .training => 1
  | .misfit => 2
  | .joining => 3
  | .inStep => 4
  | .lost => 5

def LevelSet.code : LevelSet → Nat
  | .street => 0
  | .dusk => 1

def SensorStatus.code : SensorStatus → Nat
  | .noReading => 0
  | .good => 1
  | .fault => 2

/-- Kind and outcome bytes of the store result (section 12.4). -/
def storeResultCodes : Option (JobKind × JobOutcome) → Nat × Nat
  | none => (0, 0)
  | some (kind, outcome) =>
    ((match kind with | .trim => 1 | .profile => 2 | .invalidate => 3),
     (match outcome with | .done => 1 | .failed => 2 | .noImage => 3))

def Result.code : Result → Nat
  | .accepted => 1
  | .busy => 2
  | .done => 3
  | .refusedState => 4
  | .refusedBusy => 5
  | .refusedLocked => 6
  | .refusedInvalid => 7

/-- The commands of the register window (R177). -/
inductive Command where
  | adoptProfile
  | start
  | redirect
  | resume
  | stop
  | wallReset
  | invalidateStore
deriving DecidableEq, Repr

def Command.code : Command → Byte
  | .adoptProfile => 1
  | .start => 2
  | .redirect => 3
  | .resume => 4
  | .stop => 5
  | .wallReset => 6
  | .invalidateStore => 7

/-! ## Cue records (section 12.1, R186) -/

/-- A fault detail of a number. -/
def detailOf (n : Nat) : BitVec 64 := BitVec.ofNat 64 n

/-- A fault detail of a position and an index: bits 0..7 and bits 8..15 (R188). -/
def detailPair (position index : Nat) : BitVec 64 := BitVec.ofNat 64 (position % 256 + 256 * (index % 256))

def recordKind (r : List Byte) : Nat := byteAt r 2
def recordLength (r : List Byte) : Nat := byteAt r 3
def recordCount (r : List Byte) : Nat := byteAt r 4
def recordLink (r : List Byte) : Nat := leAt r 32 8
def recordState (r : List Byte) : Nat := byteAt r 40

/-- The KEEP flag: bit 0 of the flags byte. -/
def recordKeep (r : List Byte) : Bool := decide (bitField (byteAt r 5) 0 1 = 1)

/-- SCENE and TRIM records have elements. -/
def kindHasElements (kind : Nat) : Bool := decide (kind = 1 ∨ kind = 2)

/-- A kind code that names one of the four kinds. -/
def kindNamed (kind : Nat) : Bool := decide (1 ≤ kind ∧ kind ≤ 4)

/-- The framing checks of R37 on the header of the record at `a`, in their order: the reason and the fault detail (R188)
of the first that fails. -/
def framingFault (a : Nat) (r : List Byte) : Option (HoldReason × BitVec 64) :=
  if Config.showBytes < a + 72 then some (.address, 0)
  else if Config.showBytes < a + 8 * recordLength r then some (.address, detailOf (recordLength r))
  else if leAt r 0 2 ≠ 0x5AC3 then some (.marker, detailOf (leAt r 0 2))
  else if kindHasElements (recordKind r) && !decide (1 ≤ recordCount r ∧ recordCount r ≤ 16) then
    some (.count, detailOf (recordCount r))
  else if kindNamed (recordKind r) &&
      decide (recordLength r ≠ if kindHasElements (recordKind r) then 9 + recordCount r else 9) then
    some (.length, detailOf (recordLength r))
  else if badLink (recordLink r) then some (.link, detailOf (recordLink r))
  else if !recordKeep r && decide (recordState r ≠ 0) then some (.stale, detailOf (recordState r))
  else none

/-- The number of words a record fetch reads in all: what the length gives for SCENE and TRIM records longer than the
first request of 16 words, otherwise the first request alone (R36). -/
def needsSecondRequest (r : List Byte) : Bool :=
  kindHasElements (recordKind r) && decide (16 < recordLength r)

/-- A colour at an offset. -/
def rgbAt (r : List Byte) (offset : Nat) : Rgb := ⟨r.getD offset 0, r.getD (offset + 1) 0, r.getD (offset + 2) 0⟩

/-- SCENE element at an offset: tile index, plate index, origin and optional fill (section 12.1). -/
def assignmentAt (r : List Byte) (o : Nat) : Assignment :=
  { tile := bitField (byteAt r o) 0 6
    plate := byteAt r (o + 1)
    x0 := bitField (leAt r (o + 2) 3) 0 12
    y0 := bitField (leAt r (o + 2) 3) 12 12
    fill := if bitField (byteAt r o) 7 1 = 1 then some (rgbAt r (o + 5)) else none }

/-- TRIM element at an offset: tile index and the codes its mask shows present, each the low five bits of its byte. -/
def trimEntryAt (r : List Byte) (o : Nat) : TrimEntry :=
  { tile := bitField (byteAt r o) 0 6
    street := if bitField (byteAt r (o + 1)) 0 1 = 1 then some (bitField (byteAt r (o + 2)) 0 5) else none
    dusk := if bitField (byteAt r (o + 1)) 1 1 = 1 then some (bitField (byteAt r (o + 3)) 0 5) else none }

/-- The byte offsets of a record's elements. -/
def elementOffsets (r : List Byte) : List Nat := (List.range (recordCount r)).map (fun i => 72 + 8 * i)

/-- The clock value of a CLOCK record: bits 0..4 of hours, bits 0..5 of the other three bytes (R186). -/
def clockValueAt (r : List Byte) : Clock :=
  ⟨bitField (byteAt r 20) 0 5, bitField (byteAt r 21) 0 6, bitField (byteAt r 22) 0 6, bitField (byteAt r 23) 0 6⟩

/-- The AT time, its four bytes read whole (R186). -/
def atTimeAt (r : List Byte) : Clock := ⟨byteAt r 16, byteAt r 17, byteAt r 18, byteAt r 19⟩

/-- The offset of the first AT byte out of range, if any (R39 check 2, R188). -/
def badTimeOffset (rate : Nat) (t : Clock) : Option Nat :=
  if 23 < t.hours then some 16
  else if 59 < t.minutes then some 17
  else if 59 < t.seconds then some 18
  else if rate ≤ t.frame then some 19
  else none

/-- The element checks of R39 check 3, element by element in list order: tile range, tile repeated, and an empty trim
mask (`none` of the two codes). Each element is its tile and whether its mask is empty. -/
def elementFault (tiles : Nat) : (position : Nat) → (seen : List Nat) → List (Nat × Bool) →
    Option (RefuseReason × BitVec 64)
  | _, _, [] => none
  | i, seen, (tile, emptyMask) :: rest =>
    if tiles ≤ tile then some (.badTile, detailPair i tile)
    else if seen.contains tile then some (.dupTile, detailPair i tile)
    else if emptyMask then some (.badKind, detailOf (256 + i))
    else elementFault tiles (i + 1) (tile :: seen) rest

/-- The elements of a SCENE or TRIM record as `elementFault` reads them. -/
def elementsOf (r : List Byte) : List (Nat × Bool) :=
  if recordKind r = 1 then (elementOffsets r).map (fun o => ((assignmentAt r o).tile, false))
  else if recordKind r = 2 then
    (elementOffsets r).map (fun o =>
      ((trimEntryAt r o).tile, (trimEntryAt r o).street.isNone && (trimEntryAt r o).dusk.isNone))
  else []

/-- The checks of meaning of R39, in their order: the refusal reason and the fault detail of the first that fails. -/
def meaningFault (p : Profile) (r : List Byte) : Option (RefuseReason × BitVec 64) :=
  if !kindNamed (recordKind r) then some (.badKind, 2)
  else if 3 < byteAt r 6 then some (.badKind, 6)
  else if recordKind r = 1 ∧ 1 < byteAt r 7 then some (.badKind, 7)
  else match (if byteAt r 6 = 1 then badTimeOffset p.rate (atTimeAt r) else none) with
    | some o => some (.badTime, detailOf o)
    | none => elementFault p.tiles 0 [] (elementsOf r)

/-- The start mode of a code; codes above 3 are refused before they are used (R39). -/
def startModeOf : Nat → StartMode
  | 0 => .after
  | 1 => .atTime
  | 2 => .onTrigger
  | _ => .onPulse

/-- The kind body of a record (R55). -/
def bodyAt (r : List Byte) : CueBody :=
  match recordKind r with
  | 1 => .scene ((elementOffsets r).map (assignmentAt r))
  | 2 => .trim ((elementOffsets r).map (trimEntryAt r))
  | 3 => .clock (clockValueAt r)
  | _ => .mark (BitVec.ofNat 32 (leAt r 24 4))

/-- The snapshot of the record at `a` (R36, R55); a FADE 0 is held as CUT. -/
def cueAt (a : Nat) (r : List Byte) : Cue :=
  { record := a
    body := bodyAt r
    mode := startModeOf (byteAt r 6)
    keep := recordKeep r
    extend := decide (bitField (byteAt r 5) 1 1 = 1)
    persist := decide (bitField (byteAt r 5) 2 1 = 1)
    dwell := leAt r 8 3
    transition := if byteAt r 7 = 1 ∧ byteAt r 11 ≠ 0 then .fade (byteAt r 11) else .cut
    slack := byteAt r 12
    waitLimit := leAt r 14 2
    atTime := atTimeAt r }

/-! ## Plate-table entries (section 12.2) -/

def plateStateOf : Nat → PlateState
  | 0 => .empty
  | 1 => .loading
  | 2 => .ready
  | _ => .other

/-- A plate-table entry from its 32 bytes. -/
def plateEntryOf (e : List Byte) : PlateEntry :=
  { state := plateStateOf (byteAt e 0), base := leAt e 4 4, width := leAt e 8 2, height := leAt e 10 2,
    stride := leAt e 12 2 }

/-! ## Profiles and settings images (section 12.3, R167) -/

def ambientModeOf : Nat → Option AmbientMode
  | 0 => some .auto
  | 1 => some .forceStreet
  | 2 => some .forceDusk
  | _ => none

/-- The fields of a profile block (record offsets 8..103), none when the ambient mode code names no mode. -/
def profileOf (b : List Byte) : Option Profile :=
  (ambientModeOf (byteAt b 16)).map fun mode =>
    { tiles := byteAt b 0
      rate := byteAt b 1
      lmax := byteAt b 2
      grace := byteAt b 3
      lateWindow := leAt b 4 2
      budget := leAt b 6 2
      plateTable := leAt b 8 4
      statusPage := leAt b 12 4
      ambientMode := mode
      confirm := byteAt b 17
      upThreshold := leAt b 18 2
      downThreshold := leAt b 20 2
      duskScale := leAt b 22 2
      triggerWidth := byteAt b 24
      pulseWidth := byteAt b 25
      pulseAlign := decide (bitField (byteAt b 26) 0 1 = 1)
      idleFill := rgbAt b 27
      sizes := (List.range Config.tileCount).map (fun i => (leAt b (32 + 4 * i) 2, leAt b (34 + 4 * i) 2))
      block := b.take 96 }

/-- The ranges and relations of R167. -/
def Profile.valid (p : Profile) : Bool :=
  decide (1 ≤ p.tiles ∧ p.tiles ≤ 16) &&
  (p.sizes.take p.tiles).all (fun wh => decide (64 ≤ wh.1 ∧ wh.1 ≤ 2048 ∧ 64 ≤ wh.2 ∧ wh.2 ≤ 2048)) &&
  decide (p.rate = 50 ∨ p.rate = 60) && decide (p.lmax ≤ 7) && decide (1 ≤ p.grace ∧ p.grace ≤ 15) &&
  decide (p.lateWindow ≤ 3600) && decide (1 ≤ p.budget ∧ p.budget ≤ 65535) &&
  decide (p.plateTable % 64 = 0 ∧ p.plateTable + 8192 ≤ Config.showBytes) &&
  decide (p.statusPage % 4096 = 0 ∧ p.statusPage + 4096 ≤ Config.showBytes) &&
  decide (p.downThreshold < p.upThreshold ∧ p.upThreshold ≤ 4095) &&
  decide (1 ≤ p.confirm ∧ p.confirm ≤ 63) && decide (32 ≤ p.duskScale ∧ p.duskScale ≤ 256) &&
  decide (p.triggerWidth ≤ 255 ∧ p.pulseWidth ≤ 255) &&
  !decide (p.statusPage < p.plateTable + 8192 ∧ p.plateTable < p.statusPage + 4096)

/-- The profile a block holds, if it is valid (R167). -/
def validProfileOf (b : List Byte) : Option Profile :=
  match profileOf b with
  | some p => if p.valid then some p else none
  | none => none

/-- The profile of a profile record, if the record is whole, carries its marker and is valid (R168). -/
def profileOfRecord (r : List Byte) : Option Profile :=
  if r.length < 104 ∨ leAt r 0 2 ≠ 0x5AD1 then none else validProfileOf ((r.drop 8).take 96)

/-- The image marker and version (section 12.3). -/
def imageMarker : Byte := 0xA5
def imageVersion : Byte := 1

/-- Positions of the trim bytes (section 12.3). -/
def streetPosition (k : Nat) : Nat := 98 + 2 * k
def duskPosition (k : Nat) : Nat := 99 + 2 * k

/-- The bytes of an image copy whose every byte is known. -/
def knownBytes : List (Option Byte) → Option (List Byte)
  | [] => some []
  | none :: _ => none
  | some b :: rest => (knownBytes rest).map (b :: ·)

/-- The sum of a run of bytes modulo 256. -/
def byteSum (bs : List Byte) : Byte := bs.foldl (· + ·) 0

/-- The profile and trims of a whole, valid image (R163): every byte known, marker, version, check byte, profile block,
and trim bytes in 0..31. -/
def imageContent (image : List (Option Byte)) : Option Profile :=
  match knownBytes image with
  | none => none
  | some bs =>
    if bs.length = Config.imageBytes ∧ bs.getD 0 0 = imageMarker ∧ bs.getD 1 0 = imageVersion ∧
        bs.getD 511 0 = byteSum (bs.take 511) ∧ ((bs.drop 98).take 32).all (fun b => decide (b.toNat ≤ 31)) = true
    then validProfileOf ((bs.drop 2).take 96) else none

/-- The image-valid flag (R163). -/
def imageValid (image : List (Option Byte)) : Bool := (imageContent image).isSome

/-- The byte an image copy holds at a position, 0 when unknown. -/
def imageByte (image : List (Option Byte)) (position : Nat) : Byte := (image.getD position none).getD 0

/-! ## Outcome writes (R50, R187) -/

/-- The time flags byte: LATE in bit 0, PERSIST_REFUSED in bit 1, its other bits 0 (DEDUCED, log entry 46). -/
def timeFlags (late persistRefused : Bool) : Byte :=
  BitVec.ofNat 8 (late.toNat + 2 * persistRefused.toNat)

/-- The show flags byte: DEGRADED, CLIPPED and OVER_BUDGET in bits 0..2, its other bits 0 (DEDUCED, log entry 46). -/
def showFlags (degraded clipped overBudget : Bool) : Byte :=
  BitVec.ofNat 8 (degraded.toNat + 2 * clipped.toNat + 4 * overBudget.toNat)

/-- The 48-bit visible frame with the two zero bytes written with it. -/
def frameBytes (v : Nat) : List Byte := leBytes 6 v ++ [0, 0]

/-- The runs of bytes an outcome write puts at record offsets (R187); `count` is the pass count the record holds. A
QUEUED write covers 40..55 whole; bytes 46 and 47, where no field stands and which R187 gives no value, are written 0
(DESIGN CHOICE, log entry 49). -/
def OutcomeKind.runs (k : OutcomeKind) (count : Nat) : List (Nat × List Byte) :=
  (40, [BitVec.ofNat 8 k.code]) ::
  match k with
  | .queued => [(41, List.replicate 15 0)]
  | .committed v slip late => [(42, [timeFlags late false]), (44, leBytes 2 slip), (48, frameBytes v)]
  | .sceneShown d c o => [(43, [showFlags d c o]), (56, leBytes 4 (count + 1))]
  | .keepShown v slip late pr =>
    [(42, [timeFlags late pr]), (44, leBytes 2 slip), (48, frameBytes v), (56, leBytes 4 (count + 1))]
  | .done v slip late pr => [(42, [timeFlags late pr]), (44, leBytes 2 slip), (48, frameBytes v)]
  | .skipped reason slip => [(41, [BitVec.ofNat 8 reason.code]), (44, leBytes 2 slip)]
  | .refused reason => [(41, [BitVec.ofNat 8 reason.code])]
  | .released => []
  | .withdrawn => []

/-- Show memory after runs of bytes are written at offsets from a base. -/
def writeRuns (m : List Host.Cell) (base : Nat) (runs : List (Nat × List Byte)) : List Host.Cell :=
  runs.foldl (fun m r => Memory.writeBytes m (base + r.1) r.2) m

/-- The pass count a record holds (section 12.1). -/
def passCountAt (m : List Host.Cell) (record : Nat) : Nat := leNat (Memory.readBytes m (record + 56) 4)

/-- An outcome write performed: for SHOWN, the read of the pass count and the write are one sequence (R51, R131). -/
def OutcomeWrite.perform (w : OutcomeWrite) (m : List Host.Cell) : List Host.Cell :=
  writeRuns m w.record (w.kind.runs (passCountAt m w.record))

/-! ## Fault record and status page (section 12.4, R188) -/

/-- The runs of bytes of a fault record burst, at offsets in the status page (R188). Bits 1..7 of byte 129, of which the
manual names bit 0 alone, and the two bytes above the 48 bits of the frame are 0 (DESIGN CHOICE, log entry 45); bytes 130
and 131 stay as they are (DEDUCED, log entry 36). -/
def FaultRecord.runs (f : FaultRecord) (superseded : Bool) : List (Nat × List Byte) :=
  [(128, [BitVec.ofNat 8 f.kind.code, BitVec.ofNat 8 superseded.toNat]),
   (132, leBytes 4 f.address.toNat ++ frameBytes f.frame ++ leBytes 8 f.detail.toNat)]

/-- The 32 bytes of a tile record. -/
def TileReport.bytes (t : TileReport) : List Byte :=
  [BitVec.ofNat 8 t.link.code, BitVec.ofNat 8 t.set.code] ++
  (match t.descriptor with
    | none => List.replicate 8 0
    | some d => [BitVec.ofNat 8 d.latency, 0] ++ leBytes 2 d.width ++ leBytes 2 d.height ++ leBytes 2 d.model.toNat) ++
  leBytes 2 t.missCount ++ leBytes 2 t.underruns ++ [0, 0] ++ leBytes 4 (t.cue.getD 0) ++ [0, 0, 0, 0] ++
  (match t.dwellEnd with
    | none => List.replicate 8 0xFF
    | some d => frameBytes d)

/-- The first block of a refresh, with the leading stamp. -/
def PageSnapshot.head (g : PageSnapshot) : List Byte :=
  frameBytes g.frame ++ [BitVec.ofNat 8 g.wall.code, BitVec.ofNat 8 g.follower.code, 0, 0] ++ leBytes 4 g.follow ++
  frameBytes g.frame ++
  [BitVec.ofNat 8 g.clock.hours, BitVec.ofNat 8 g.clock.minutes, BitVec.ofNat 8 g.clock.seconds,
   BitVec.ofNat 8 g.clock.frame] ++
  leBytes 2 g.average ++ [BitVec.ofNat 8 g.level.code, BitVec.ofNat 8 g.sensor.code] ++
  leBytes 4 g.handback.toNat ++ leBytes 4 g.tag.toNat ++
  [BitVec.ofNat 8 (storeResultCodes g.result).1, BitVec.ofNat 8 (storeResultCodes g.result).2, 0, 0] ++
  leBytes 4 g.skipped.toNat ++ List.replicate 80 0

/-- Bursts of one refresh: blocks 0, 2, 3, 4, 5 and 6, in that order (section 12.4). -/
def refreshBursts : Nat := 6

/-- The 128-byte block of the page that burst `i` of a refresh writes. -/
def refreshBlock (i : Nat) : Nat := if i = 0 then 0 else i + 1

/-- The 128 bytes of burst `i`: the head, four blocks of four tile records, then the trailing stamp and zeros. -/
def PageSnapshot.burst (g : PageSnapshot) (i : Nat) : List Byte :=
  if i = 0 then g.head
  else if i ≤ 4 then (((g.tiles.drop (4 * (i - 1))).take 4).map TileReport.bytes).flatten
  else frameBytes g.frame ++ List.replicate 120 0

/-! ## Registers (section 12.5) -/

def cmdField : Option CmdRecord → Nat
  | none => 0
  | some r => r.code.toNat + 256 * r.result.code

/-- What a read of CMD returns: the main record in bits 0..11, the side record in bits 16..27 (R176, R189). -/
def Window.cmdValue (w : Window) : BitVec 32 := BitVec.ofNat 32 (cmdField w.main + 65536 * cmdField w.side)

/-- What a 32-bit read of a BAR0 offset returns. Reading FRAME_LO also latches (R8): that is FRAME_LO_READ; the other
reads change nothing, and an offset that holds no register reads 0 (R175). -/
def State.readRegister (s : State) (offset : Nat) : BitVec 32 :=
  match offset with
  | 0x00 => s.window.cmdValue
  | 0x08 => s.window.arg.extractLsb' 0 32
  | 0x0C => s.window.arg.extractLsb' 32 32
  | 0x10 => s.window.attn.zeroExtend 32
  | 0x14 => s.window.mask.zeroExtend 32
  | 0x18 => BitVec.ofNat 32 s.ftg.frame
  | 0x1C => s.ftg.latch.zeroExtend 32
  | _ => 0

end Sys2Proof.Machine
end

