-- ==== Sys2Proof/Machine/Timing.lean ====
section
/-! DEFINITION. The show clock (chapter 1, sections 1.2 to 1.6). -/

namespace Sys2Proof.Machine

/-- One field of the clock incremented: the new value, and whether it carries (R5). -/
def bumpField (top old : Nat) : Nat × Bool :=
  if old < top then (old + 1, false) else (0, true)

/-- The seconds field incremented, carrying into minutes and hours (R5, R14). -/
def Clock.bumpSeconds (c : Clock) : Clock :=
  let s := bumpField 59 c.seconds
  let m := if s.2 then bumpField 59 c.minutes else (c.minutes, false)
  let h := if m.2 then bumpField 23 c.hours else (c.hours, false)
  { c with seconds := s.1, minutes := m.1, hours := h.1 }

/-- The clock incremented at a frame start (R5). -/
def Clock.increment (rate : Nat) (c : Clock) : Clock :=
  let f := bumpField (rate - 1) c.frame
  let c' := if f.2 then c.bumpSeconds else c
  { c' with frame := f.1 }

/-- The incremented clock brought to the nearer whole second by a house pulse (R14). -/
def Clock.align (rate : Nat) (c : Clock) : Clock :=
  if c.frame = 0 then c
  else if c.frame < rate / 2 then { c with frame := 0 }
  else { c.bumpSeconds with frame := 0 }

/-- The Frame Timing Generator at a frame start after that of frame 0: frame number, then a clock set of the new frame,
or the increment with any pending alignment (R2, R7, R14). -/
def Ftg.advance (rate : Nat) (f : Ftg) : Ftg :=
  let n := f.frame + 1
  match f.clockSets.find? (fun e => e.visible == n) with
  | some e =>
    { f with frame := n, clock := e.value, alignPending := false,
             clockSets := f.clockSets.filter (fun e => e.visible != n) }
  | none =>
    let c := f.clock.increment rate
    { f with frame := n, clock := if f.alignPending then c.align rate else c, alignPending := false }

/-- A clock set joins the list, ordered by visible frame; one of the same frame takes its values and its record (R6). -/
def addClockSet (visible : Nat) (value : Clock) (record : Nat) : List ClockSet → List ClockSet
  | [] => [⟨visible, value, [record]⟩]
  | e :: rest =>
    if e.visible = visible then { e with value := value, records := e.records ++ [record] } :: rest
    else if visible < e.visible then ⟨visible, value, [record]⟩ :: e :: rest
    else e :: addClockSet visible value record rest

/-- The time of day of a clock value in frames, reduced modulo a day (R64). -/
def timeOfDay (rate : Nat) (c : Clock) : Nat :=
  (((c.hours * 60 + c.minutes) * 60 + c.seconds) * rate + c.frame) % (86400 * rate)

/-- The target of an AT time fixed in frame `now` from the clock as held, and whether it is LATE (R64). -/
def atTarget (p : Profile) (now : Nat) (clock atTime : Clock) : Int × Bool :=
  let day := 86400 * p.rate
  let ahead := (timeOfDay p.rate atTime + day - timeOfDay p.rate clock) % day
  if ahead ≤ day - p.lateWindow * p.rate then ((now : Int) + ahead, false)
  else ((now : Int) - ((day : Int) - ahead), true)

/-- The filter width of an input (R10). -/
def Profile.filterWidth (p : Profile) : EventInput → Nat
  | .trigger => p.triggerWidth
  | .pulse => p.pulseWidth

def Ftg.filter (f : Ftg) : EventInput → Filter
  | .trigger => f.trigger
  | .pulse => f.pulse

def Ftg.setFilter (f : Ftg) (i : EventInput) (x : Filter) : Ftg :=
  match i with
  | .trigger => { f with trigger := x }
  | .pulse => { f with pulse := x }

def Pins.level (p : Pins) : EventInput → Bool
  | .trigger => p.trigger
  | .pulse => p.pulse

def Pins.setLevel (p : Pins) (i : EventInput) (b : Bool) : Pins :=
  match i with
  | .trigger => { p with trigger := b }
  | .pulse => { p with pulse := b }

/-- The filter state an input takes when the Frame Timing Generator begins running (R12). -/
def initialFilter (level : Bool) : Filter := if level then .waitInactive else .idle

end Sys2Proof.Machine
end

