-- ==== Sys2Proof/Machine/Geometry.lean ====
section
/-! DEFINITION. The crop of a plate onto a tile, in columns, rows and words (chapter 2, sections 2.3 to 2.5). -/

namespace Sys2Proof.Machine

/-- Columns of a tile of width `w` inside a plate of width `plateW` from column `x0` (R26). -/
def columnsInside (w plateW x0 : Nat) : Nat := min w (plateW - x0)

/-- Rows of a tile of height `h` inside a plate of height `plateH` from row `y0` (R26). -/
def rowsInside (h plateH y0 : Nat) : Nat := min h (plateH - y0)

/-- Words fetched for each tile row inside the plate (R27). -/
def wordsPerRow (x0 cIn : Nat) : Nat := if cIn = 0 then 0 else (x0 % 2 + cIn + 1) / 2

/-- The content record of a plate shown on a tile of the given size (R26, R27, R31). -/
def contentOf (size : Nat × Nat) (plate : Snapshot) (x0 y0 : Nat) (fill : Option Rgb) : Content :=
  { plate := some plate, x0 := x0, y0 := y0, fill := fill
    cIn := columnsInside size.1 plate.width x0
    rIn := rowsInside size.2 plate.height y0
    words := wordsPerRow x0 (columnsInside size.1 plate.width x0) }

/-- Words per frame of a content (R28); a content with no plate gives 0 (R30). -/
def Content.wordsPerFrame (c : Content) : Nat := c.rIn * c.words

/-- Word address of the first word of tile row `r` (R28). -/
def Content.rowStart (c : Content) (r : Nat) : Nat :=
  match c.plate with
  | some p => p.base + (c.y0 + r) * p.stride + c.x0 / 2
  | none => 0

/-- The snapshot of a plate-table entry: the base as a word address (R23). -/
def PlateEntry.snapshot (e : PlateEntry) : Snapshot :=
  { base := e.base / 8, width := e.width, height := e.height, stride := e.stride }

/-- The assignment shows fill on the tile, whatever the link state (R29). -/
def Content.clipped (c : Content) (size : Nat × Nat) : Bool := decide (c.cIn < size.1 ∨ c.rIn < size.2)

end Sys2Proof.Machine
end

