-- ==== Sys2Proof/Machine/Report.lean ====
section
/-! DEFINITION. The Report Writer's write queue: its places, who is owed one, and how writes are received (R35, R52, R73,
R79). -/

namespace Sys2Proof.Machine

/-- Places reserved: two by a record fetch in flight (R35), two by a commit attempt (R79). -/
def State.reservedPlaces (s : State) : Nat :=
  (match s.follower.fetch with | some (.record _ _ _) => 2 | some (.link _ _) => 0 | none => 0) +
  (if s.commit.attempt.isSome then 2 else 0)

/-- Free places of the write queue, reserved ones not counted. -/
def State.freePlaces (s : State) : Nat :=
  Config.writeQueueDepth - s.report.queue.length - s.reservedPlaces

/-- Departing entries, each owed a place before anything else (R73). -/
def State.departingCount (s : State) : Nat := s.scheduler.queue.countP (·.departing.isSome)

/-- Free places offered to the fault record of a hold: none while any entry is departing (R73). -/
def State.placesForHold (s : State) : Nat := if s.departingCount = 0 then s.freePlaces else 0

/-- Free places offered to the hand-off list: none while an entry departs or a hold's fault record waits (R73, R79). -/
def State.placesForHandoff (s : State) : Nat := if s.report.holdFaults = [] then s.placesForHold else 0

/-- Free places offered to the Chain Follower's test, a commit attempt and a refresh: none while any write waits (R73,
R79; log entry 15). -/
def State.openPlaces (s : State) : Nat := if s.commit.handoff = [] then s.placesForHandoff else 0

/-- A write joins the tail of the write queue. -/
def enqueue (item : QueueItem) (s : State) : State :=
  s.setReport { s.report with queue := s.report.queue ++ [item] }

/-- An outcome write joins the tail of the write queue. -/
def enqueueOutcome (record : Nat) (kind : OutcomeKind) (s : State) : State :=
  enqueue (.outcome ⟨record, kind⟩ false) s

/-- A write of the Commit Unit decided outside an attempt is received at once when a place is free and no write waits, and
otherwise waits at the tail of the hand-off list (R79). -/
def handOn (record : Nat) (kind : OutcomeKind) (s : State) : State :=
  if 0 < s.openPlaces then enqueueOutcome record kind s
  else s.setCommit { s.commit with handoff := s.commit.handoff ++ [⟨record, kind⟩] }

/-- The fault record of a hold decided outside a fetch is received at once when a place is offered to it, and otherwise
waits (R52, R73). -/
def reportHold (f : FaultRecord) (s : State) : State :=
  if 0 < s.placesForHandoff then enqueue (.fault f false) s
  else s.setReport { s.report with holdFaults := s.report.holdFaults ++ [f] }

/-- An item of the write queue that is an outcome write for a record. -/
def QueueItem.isFor (record : Nat) : QueueItem → Bool
  | .outcome w _ => w.record == record
  | .fault _ _ => false
  | .refresh _ _ _ _ => false

/-- The address is that of a record with an entry in the look-ahead queue, or with an outcome write that has not yet
landed, the hand-off list counted (R35 condition 2, R79). -/
def State.recordInUse (s : State) (record : Nat) : Bool :=
  s.scheduler.queue.any (·.cue.record == record) || s.report.queue.any (·.isFor record) ||
    s.commit.handoff.any (·.record == record)

/-- The Chain Follower is told that an entry has left the queue (R41). -/
def followerOnLeave (s : State) : State :=
  match s.follower.state with
  | .full => s.setFollower { s.follower with state := .fetching }
  | .waitReuse =>
    if s.recordInUse s.follower.follow then s else s.setFollower { s.follower with state := .fetching }
  | .idle | .fetching | .awaitLink | .hold => s

/-- The Chain Follower is told that an outcome write has landed (R41). -/
def followerOnLanded (s : State) : State :=
  match s.follower.state with
  | .waitReuse =>
    if s.recordInUse s.follower.follow then s else s.setFollower { s.follower with state := .fetching }
  | .idle | .fetching | .full | .awaitLink | .hold => s

end Sys2Proof.Machine
end

