-- ==== Sys2Proof/Machine/Scheduler.lean ====
section
/-! DEFINITION. The Cue Scheduler: references, the effective visible frame, AT targets, event waits, extension, and how
entries leave the queue (chapter 4). -/

namespace Sys2Proof.Machine

/-! ## The effective visible frame (R56 to R60) -/

/-- The dwell end of a reference: a frame, open with the reference's V, or unknown (R58). -/
inductive RefEnd where
  | frame (n : Nat)
  | opened (visible : Nat)
  | unknown
deriving DecidableEq, Repr

/-- The dwell end of a scene of visible frame `v` and dwell `d` (R57, R58). -/
def sceneEnd (v d : Nat) : RefEnd := if d = 0 then .opened v else .frame (v + d)

/-- The frame A that arming and wait limits count from: the dwell end, or V when it is open (R67). -/
def RefEnd.waitBase : RefEnd → Option Nat
  | .frame n => some n
  | .opened v => some v
  | .unknown => none

/-- What the entries ahead of an entry give it: the V_eff of the entry ahead, that of the nearest scene, the reference's
dwell end, and whether they are all resolved. -/
structure Ahead where
  lastV    : Option Nat
  sceneV   : Option Nat
  ref      : RefEnd
  resolved : Bool
deriving DecidableEq, Repr

/-- An entry evaluated: its reference's dwell end, derived V and V_eff (none while unresolved). -/
structure Eval where
  entry   : Entry
  ref     : RefEnd
  derived : Option Int
  vEff    : Option Nat
deriving DecidableEq, Repr

def CueBody.isScene : CueBody → Bool
  | .scene _ => true
  | .trim _ | .clock _ | .mark _ => false

def CueBody.isClock : CueBody → Bool
  | .clock _ => true
  | .scene _ | .trim _ | .mark _ => false

/-- ON_TRIGGER and ON_PULSE wait for an event. -/
def StartMode.isEvent : StartMode → Bool
  | .onTrigger | .onPulse => true
  | .after | .atTime => false

/-- The derived V of an entry from its reference's dwell end (R55, R63). -/
def Entry.derived (e : Entry) (ref : RefEnd) : Option Int :=
  match e.cue.mode with
  | .after => match ref with
    | .frame n => some (n : Int)
    | .opened _ => none
    | .unknown => none
  | .atTime => e.target
  | .onTrigger => e.eventFrame.map (fun n => (n : Int))
  | .onPulse => e.eventFrame.map (fun n => (n : Int))

/-- The greatest of the four terms of R59, `floor` being now + H. -/
def effectiveFrame (floor : Nat) (a : Ahead) (scene : Bool) (derived : Int) : Nat :=
  max (max derived.toNat (a.lastV.getD 0)) (max (if scene then (a.sceneV.map (· + 1)).getD 0 else 0) floor)

/-- One entry evaluated behind what stands ahead of it (R59, R60). -/
def evalEntry (floor : Nat) (a : Ahead) (e : Entry) : Eval :=
  let d := e.derived a.ref
  { entry := e, ref := a.ref, derived := d
    vEff := if a.resolved then d.map (effectiveFrame floor a e.cue.body.isScene) else none }

/-- What an evaluated entry gives the entries behind it. -/
def Eval.ahead (v : Eval) (a : Ahead) : Ahead :=
  { lastV := v.vEff
    sceneV := if v.entry.cue.body.isScene then v.vEff else a.sceneV
    ref := if v.entry.cue.body.isScene then
        (match v.vEff with | some n => sceneEnd n v.entry.cue.dwell | none => .unknown) else a.ref
    resolved := v.vEff.isSome }

/-- The entries evaluated in chain order. -/
def evalFrom (floor : Nat) : Ahead → List Entry → List Eval
  | _, [] => []
  | a, e :: rest => evalEntry floor a e :: evalFrom floor ((evalEntry floor a e).ahead a) rest

/-- The dwell end of the last committed scene, as held (R58). -/
def LastScene.refEnd (l : LastScene) : RefEnd :=
  match l.dwellEnd with
  | some n => .frame n
  | none => .opened l.visible

/-- What stands before the oldest entry: the last committed frame and scene, and the anchor (R56, R59). -/
def Scheduler.before (c : Scheduler) : Ahead :=
  { lastV := c.lastFrame
    sceneV := c.lastScene.map (·.visible)
    ref := match c.lastScene with | some l => l.refEnd | none => .frame c.anchor
    resolved := true }

/-- The entries of the queue that are not departing, evaluated (R54, R60). -/
def State.evals (s : State) : List Eval :=
  evalFrom (s.now + s.horizon) s.scheduler.before (s.scheduler.queue.filter (·.departing.isNone))

/-- The oldest entry: the first that is not departing (R54). -/
def State.oldest (s : State) : Option Eval := s.evals.head?

/-- The oldest entry is armed: an event wait, unresolved, with now ≥ A − H (R67). An event wait appended as the oldest
entry is so armed at its append when A − H has been reached: R67 has it armed while the three hold, and as soon as it is
the oldest where A is the anchor frame, but R55 begins with the flag clear, and R67 names no evaluation at an append before
the next frame start (DESIGN CHOICE, log entry 48). -/
def State.armed (s : State) : Option Entry :=
  match s.oldest with
  | none => none
  | some v =>
    match v.ref.waitBase with
    | none => none
    | some a => if v.entry.cue.mode.isEvent && v.vEff.isNone && decide (a ≤ s.now + s.horizon) then some v.entry else none

/-- The armed entry, when it waits for the given kind of event (R68). -/
def State.armedFor (s : State) (mode : StartMode) : Option Entry :=
  match s.armed with
  | some e => if e.cue.mode = mode then some e else none
  | none => none

/-- The slip of an evaluated entry with visible frame V (R62). -/
def Eval.slip (v : Eval) : Nat :=
  match v.vEff, v.derived with
  | some n, some d => saturateSlip ((n : Int) - d)
  | _, _ => 0

/-! ## AT targets (R64, R65) -/

/-- An entry's target fixed from the clock as it stands (R64). -/
def Entry.fixTarget (s : State) (e : Entry) : Entry :=
  let t := atTarget s.prof s.now s.ftg.clock e.cue.atTime
  { e with target := some t.1, late := t.2 }

/-- An AT entry whose target is not fixed and which waits for no CLOCK cue any longer (R65). -/
def Entry.readyToFix (now : Nat) (e : Entry) : Bool :=
  decide (e.cue.mode = .atTime) && e.target.isNone && e.departing.isNone && e.clockAhead.isEmpty &&
    (match e.clockFrame with | none => true | some f => decide (f ≤ now))

/-- The queue changed entry by entry. -/
def mapQueue (f : Entry → Entry) (s : State) : State :=
  s.setScheduler { s.scheduler with queue := s.scheduler.queue.map f }

/-- Every target that may now be fixed is fixed (R65). -/
def fixTargets (s : State) : State :=
  mapQueue (fun e => if e.readyToFix s.now then e.fixTarget s else e) s

/-- The greatest visible frame of the clock-set list, none when it is empty (R65). -/
def lastClockFrame (l : List ClockSet) : Option Nat :=
  l.foldl (fun acc e => some (max (acc.getD 0) e.visible)) none

/-- The entry of an accepted record with its working fields at append (R55, R65). -/
def newEntry (s : State) (c : Cue) : Entry :=
  let e : Entry :=
    { cue := c, slackUsed := 0, target := none, late := false, eventFrame := none
      clockAhead :=
        (s.scheduler.queue.filter (fun e => e.departing.isNone && e.cue.body.isClock)).map (·.cue.record)
      clockFrame := lastClockFrame s.ftg.clockSets
      departing := none, attemptable := false }
  if c.mode = .atTime ∧ e.clockAhead = [] ∧ e.clockFrame = none then e.fixTarget s else e

/-- A record accepted: its entry joins the tail of the queue (R40, R55). -/
def appendEntry (c : Cue) (s : State) : State :=
  s.setScheduler { s.scheduler with queue := s.scheduler.queue ++ [newEntry s c] }

/-- The AT entries that wait for the CLOCK cue of a record learn that it commits with visible frame `v`; the record itself
drops out of their wait as its entry leaves the queue (R65, `leaveQueue`). -/
def clockCommitted (record v : Nat) (s : State) : State :=
  mapQueue (fun e =>
    if e.clockAhead.contains record then { e with clockFrame := some (max (e.clockFrame.getD 0) v) } else e) s

/-! ## Leaving the queue (R73, R74) -/

/-- The entry of a record leaves the queue: the Chain Follower is told, an AT entry that waited for it drops it from its
wait, and a target left with nothing to wait for is fixed (R41, R65, R74). -/
def leaveQueue (record : Nat) (s : State) : State :=
  let q := (s.scheduler.queue.filter (fun e => e.cue.record != record)).map
    (fun e => { e with clockAhead := e.clockAhead.filter (· != record) })
  followerOnLeave (fixTargets (s.setScheduler { s.scheduler with queue := q }))

/-- The oldest departing entry with its departure. -/
def State.oldestDeparting (s : State) : Option (Nat × Departure) :=
  s.scheduler.queue.findSome? (fun e => e.departing.map (fun d => (e.cue.record, d)))

/-- A free place receives the oldest departing entry's write, and the entry leaves the queue (R73). -/
def receiveDeparting (s : State) : State :=
  match s.oldestDeparting with
  | none => s
  | some (record, d) =>
    if 0 < s.freePlaces then leaveQueue record (enqueueOutcome record d.outcome s) else s

/-- Departing writes are received one after another while places are free. -/
def drainDeparting : Nat → State → State
  | 0, s => s
  | n + 1, s => drainDeparting n (receiveDeparting s)

/-- The entries a test picks become departing, and their writes are handed to the Report Writer in chain order (R73). -/
def depart (pick : Entry → Bool) (why : Departure) (s : State) : State :=
  let s' := mapQueue (fun e => if e.departing.isNone && pick e then { e with departing := some why } else e) s
  drainDeparting s'.scheduler.queue.length s'

/-- Every entry not already departing is withdrawn (R75, R76). -/
def withdrawAll (s : State) : State := depart (fun _ => true) .withdrawn s

/-- An evaluated event wait whose limit is met in frame `now` (R69). -/
def Eval.limitReached (now : Nat) (v : Eval) : Bool :=
  v.entry.cue.mode.isEvent && v.vEff.isNone && v.entry.eventFrame.isNone && decide (0 < v.entry.cue.waitLimit) &&
    (match v.ref.waitBase with | some a => decide (a + v.entry.cue.waitLimit ≤ now) | none => false)

/-- The records whose event wait has reached its limit in frame `now` (R69). -/
def State.expiredWaits (s : State) (now : Nat) : List Nat :=
  (s.evals.filter (·.limitReached now)).map (·.entry.cue.record)

/-- The event waits of the given records are skipped NO_TRIGGER (R69, R73). -/
def skipWaits (records : List Nat) (s : State) : State :=
  depart (fun e => records.contains e.cue.record) .noTrigger s

/-! ## Events (R68, R70 to R72) -/

/-- An event resolves the armed entry: its derived V becomes t + 1 + H (R68). -/
def resolveWait (record : Nat) (s : State) : State :=
  mapQueue (fun e =>
    if e.cue.record = record ∧ e.departing = none then { e with eventFrame := some (s.now + 1 + s.horizon) } else e) s

/-- The last committed scene that a trigger in frame `t` may lengthen (R70 case 2). -/
def LastScene.extendable (t : Nat) (l : LastScene) : Bool :=
  decide (l.visible ≤ t) && l.extend && decide (0 < l.dwell)

/-- The last committed scene's dwell end is raised to t + 1 + d, and its showing-table entry's with it (R71, R95). -/
def extendScene (l : LastScene) (s : State) : State :=
  let raised (d : Option Nat) : Option Nat := d.map (fun n => max n (s.now + 1 + l.dwell))
  let s' := s.setScheduler { s.scheduler with lastScene := some { l with dwellEnd := raised l.dwellEnd } }
  s'.setCommit { s'.commit with
    showing := s'.commit.showing.map (fun e => if e.id = l.id then { e with dwellEnd := raised l.dwellEnd } else e) }

/-- A trigger event of the current frame, as the Cue Scheduler takes it (R70). -/
def triggerEvent (s : State) : State :=
  if s.window.wall ≠ .showing then s
  else
    match s.armedFor .onTrigger with
    | some e => resolveWait e.cue.record s
    | none =>
      match s.scheduler.lastScene with
      | some l => if l.extendable s.now then extendScene l s else s
      | none => s

/-- A pulse event of the current frame, as the Cue Scheduler takes it (R72). -/
def pulseEvent (s : State) : State :=
  if s.window.wall ≠ .showing then s
  else
    match s.armedFor .onPulse with
    | some e => resolveWait e.cue.record s
    | none => s

/-- The showing begins anew: the anchor is the current frame, and no scene or frame has been committed (R57). -/
def setAnchor (s : State) : State :=
  s.setScheduler { s.scheduler with anchor := s.now, lastScene := none, lastFrame := none }

end Sys2Proof.Machine
end

