-- ==== Sys2Proof/Machine/Follower.lean ====
section
/-! DEFINITION. The Chain Follower: fetching, framing, the chain's end, holds (chapter 3), with the meanings of
FETCH_BEGIN, RECORD_WORDS_ARRIVED and LINK_READ_RETURN. -/

namespace Sys2Proof.Machine

/-- The fault record of a hold decided in the current frame (R37, R184). -/
def holdRecord (s : State) (reason : HoldReason) (address : Nat) (detail : BitVec 64) : FaultRecord :=
  { kind := reason.fault, hold := true, address := BitVec.ofNat 32 address, frame := s.now, detail := detail }

/-- The Chain Follower enters HOLD with a reason and position, its follow address the held one (R33, R37). -/
def enterHold (reason : HoldReason) (position : HoldPosition) (address : Nat) (s : State) : State :=
  s.setFollower { state := .hold, follow := address, position := position, reason := some reason, fetch := none }

/-- Following ends: IDLE with the follow address unchanged, the fetch in flight abandoned and the places it reserved
freed, and any hold reason cleared (R46, R47). -/
def endFollowing (s : State) : State :=
  s.setFollower { s.follower with state := .idle, fetch := none, reason := none }

/-- Following goes on at a 64-bit address checked as R34 does: FETCHING, or HOLD with reason ADDRESS and its fault
record. -/
def followFrom (address : Nat) (s : State) : State :=
  if badAddress address then
    reportHold (holdRecord s .address address (detailOf (address / 2 ^ 32))) (enterHold .address .record address s)
  else s.setFollower { s.follower with state := .fetching, follow := address, reason := none, fetch := none }

/-- After a record is accepted or refused at fetch the Chain Follower takes its link (R39, R40). -/
def takeLink (address link : Nat) (s : State) : State :=
  if link = 0 then s.setFollower { s.follower with state := .awaitLink, follow := address, fetch := none }
  else s.setFollower { s.follower with state := .fetching, follow := link, fetch := none }

/-- A record that passed the framing checks is refused or accepted (R39, R40); its writes use the fetch's places. -/
def judgeRecord (address : Nat) (r : List Byte) (s : State) : State :=
  match meaningFault s.prof r with
  | some (reason, detail) =>
    enqueue
      (.fault { kind := reason.fault, hold := false, address := BitVec.ofNat 32 address, frame := s.now,
                detail := detail } false)
      (enqueueOutcome address (.refused reason) (takeLink address (recordLink r) s))
  | none =>
    enqueueOutcome address .queued (appendEntry (cueAt address r) (takeLink address (recordLink r) s))

/-- The Chain Follower polls the tail's link word at a frame start, unless a read is still in flight (R42). -/
def pollLink (s : State) : State :=
  if s.follower.state = .awaitLink ∧ s.follower.fetch = none then
    s.setFollower { s.follower with fetch := some (.link s.follower.follow none) }
  else s

/-- The words of the request a record fetch presents: word address and count (R36). -/
def recordRequest (address : Nat) (arrived : List Byte) : Nat × Nat :=
  if arrived = [] then (address / 8, min 16 ((Config.showBytes - address) / 8))
  else (address / 8 + 16, recordLength arrived - 16)

/-- Following resumes from HOLD by its position and reason (R45). -/
def resumeFollowing (s : State) : State :=
  match s.follower.position, s.follower.reason with
  | .link, _ => s.setFollower { s.follower with state := .awaitLink, reason := none, fetch := none }
  | .record, some .address => followFrom s.follower.follow s
  | .record, _ => s.setFollower { s.follower with state := .fetching, reason := none, fetch := none }

/-- FETCH_BEGIN without its outcome. -/
def fetchBegin (s : State) : State :=
  if s.follower.state ≠ .fetching ∨ s.follower.fetch.isSome then s
  else if Config.queueDepth ≤ s.scheduler.queue.length then s.setFollower { s.follower with state := .full }
  else if s.recordInUse s.follower.follow then s.setFollower { s.follower with state := .waitReuse }
  else if s.openPlaces < 2 then s
  else s.setFollower { s.follower with fetch := some (.record s.follower.follow [] none) }

/-- RECORD_WORDS_ARRIVED without its outcome and DRY. -/
def recordArrived (s : State) : State :=
  match s.follower.fetch with
  | some (.record a arrived (some data)) =>
    let r := arrived ++ data
    if arrived = [] then
      match framingFault a r with
      | some (reason, detail) =>
        enqueue (.fault (holdRecord s reason a detail) false) (enterHold reason .record a s)
      | none =>
        if needsSecondRequest r then s.setFollower { s.follower with fetch := some (.record a r none) }
        else judgeRecord a r s
    else judgeRecord a r s
  | some (.record _ _ none) => s
  | some (.link _ _) => s
  | none => s

/-- LINK_READ_RETURN without its outcome. -/
def linkReturned (s : State) : State :=
  match s.follower.fetch with
  | some (.link a (some w)) =>
    if w = 0 then s.setFollower { s.follower with fetch := none }
    else if badLink w.toNat then reportHold (holdRecord s .link a w) (enterHold .link .link a s)
    else s.setFollower { s.follower with state := .fetching, follow := w.toNat, fetch := none }
  | some (.link _ none) => s
  | some (.record _ _ _) => s
  | none => s

/-- FETCH_BEGIN: in FETCHING with no fetch in flight the Chain Follower acts on the first condition of R35 that holds:
FULL, WAIT_REUSE, waiting for two places, or a fetch with two reserved places. -/
def execFetchBegin (s : State) : Host.Outcome State Fault Refusal := .next (fetchBegin s)

/-- RECORD_WORDS_ARRIVED: the framing checks of R37, the second request of R36, then the refusal or acceptance of R39
and R40, with DRY if the follower comes to wait at a tail with the queue empty (R44). -/
def execRecordWordsArrived (s : State) : Host.Outcome State Fault Refusal := .next (dryEdge s (recordArrived s))

/-- LINK_READ_RETURN: 0 keeps AWAIT_LINK, a bad value holds with reason LINK, a good one is followed (R42). -/
def execLinkReadReturn (s : State) : Host.Outcome State Fault Refusal := .next (linkReturned s)

/-- DEPARTING_WRITE_RECEIVED: a freed place receives the oldest departing entry's write, and the entry leaves the queue
(R73), with DRY if that empties it in AWAIT_LINK (R44). -/
def execDepartingWriteReceived (s : State) : Host.Outcome State Fault Refusal := .next (dryEdge s (receiveDeparting s))

end Sys2Proof.Machine
end

