-- ==== Sys2Proof/Machine/Levels.lean ====
section
/-! DEFINITION. Scan contexts, the fade mixer and the level stage (chapter 6). -/

namespace Sys2Proof.Machine

/-! ## The scan context -/

/-- A running fade ends at once: its new content becomes the current content (R104). -/
def Scan.endFade (c : Scan) : Scan :=
  match c.fade with
  | some f => { c with current := f.new, fade := none }
  | none => c

/-- The frame-start advance of a running fade (R107). -/
def Scan.advanceFade (c : Scan) : Scan :=
  match c.fade with
  | some f => if f.step < f.n then { c with fade := some { f with step := f.step + 1 } } else c.endFade
  | none => c

/-- A scene switch taken: any fade ends at once, and the content is replaced, or a new fade starts from it (R102 to
R104). A FADE 0 is a CUT (R88). -/
def Scan.takeScene (content : Content) (transition : Transition) (cue : PassId) (c : Scan) : Scan :=
  let c' := c.endFade
  match transition with
  | .cut => { c' with current := content, cue := some cue }
  | .fade 0 => { c' with current := content, cue := some cue }
  | .fade (n + 1) =>
    { c' with
      fade := some { old := c'.current, new := content, n := n + 1, step := 1, oldCue := c'.cue }
      cue := some cue }

/-- A trim switch taken: the codes it carries replace those held (R105). -/
def Scan.takeTrim (street dusk : Option Nat) (c : Scan) : Scan :=
  { c with street := street.getD c.street, dusk := dusk.getD c.dusk }

/-- A level switch taken (R106). -/
def Scan.takeLevel (set : LevelSet) (c : Scan) : Scan := { c with set := set }

/-- No plate, idle fill, no fade and no current cue; codes and set are kept (R97, R116). -/
def Scan.clear (c : Scan) : Scan := { c with current := .noPlate, fade := none, cue := none }

/-- The content the scan context shows: the new plate of a fade in progress, or the current content (R84). -/
def Scan.shown (c : Scan) : Content :=
  match c.fade with
  | some f => f.new
  | none => c.current

/-! ## The mixer (R107) -/

/-- One component mixed at step `i` of a fade of length `n`. -/
def mix (a b n i : Nat) : Nat := (a * (n - i) + b * i + n / 2) / n

/-- A pixel mixed component by component. -/
def mixRgb (old new : Rgb) (n i : Nat) : Rgb :=
  { r := BitVec.ofNat 8 (mix old.r.toNat new.r.toNat n i)
    g := BitVec.ofNat 8 (mix old.g.toNat new.g.toNat n i)
    b := BitVec.ofNat 8 (mix old.b.toNat new.b.toNat n i) }

/-! ## The level stage (R109 to R111) -/

/-- The gain of a trim code, in units of 1/256 (R109). -/
def gain (code : Nat) : Nat := 192 + 4 * code

/-- A component under STREET (R110). -/
def streetOut (g m : Nat) : Nat := min 255 ((m * g + 128) / 256)

/-- A component under DUSK with dusk scale `d` (R111). -/
def duskOut (g d m : Nat) : Nat := min 255 ((m * g * d + 32768) / 65536)

/-- The level stage of a tile for one component (R110, R111). -/
def Scan.level (duskScale : Nat) (c : Scan) (m : Nat) : Nat :=
  match c.set with
  | .street => streetOut (gain c.street) m
  | .dusk => duskOut (gain c.dusk) duskScale m

/-- The level stage of a tile for a pixel. -/
def Scan.levelRgb (duskScale : Nat) (c : Scan) (p : Rgb) : Rgb :=
  { r := BitVec.ofNat 8 (c.level duskScale p.r.toNat)
    g := BitVec.ofNat 8 (c.level duskScale p.g.toNat)
    b := BitVec.ofNat 8 (c.level duskScale p.b.toNat) }

end Sys2Proof.Machine
end

