-- ==== Sys2Proof/Machine/Fetch.lean ====
section
/-! DEFINITION. The fetch engine, the lanes of the line buffer, the pixels the link takes and underruns (chapter 7,
sections 7.1 to 7.4), with the meanings of LINK_TAKES_PIXEL and BURST_ARRIVAL. -/

namespace Sys2Proof.Machine

/-! ## Lanes -/

/-- A lane of an engine; the old lane of a single arrangement is empty. -/
def Engine.lane (e : Engine) : LaneId → Lane
  | .old => e.old.getD .empty
  | .main => e.main

def Engine.setLane (e : Engine) (id : LaneId) (l : Lane) : Engine :=
  match id with
  | .old => { e with old := e.old.map (fun _ => l) }
  | .main => { e with main := l }

/-- Words a lane can hold: 1024 as the single lane, 512 in the split arrangement (R117). -/
def Engine.capacity (e : Engine) : Nat := if e.old.isSome then Config.splitWords else Config.laneWords

/-- The burst of a lane that counts against its free space (R117). -/
def Engine.outstanding (e : Engine) (id : LaneId) : Option Burst :=
  e.flight.find? (fun b => decide (b.lane = id) && !b.stale)

/-- Free space of a lane: its capacity less the words held and less those reserved (R117). -/
def Engine.free (e : Engine) (id : LaneId) : Nat :=
  e.capacity - (e.lane id).words.length - (match e.outstanding id with | some b => b.words.length | none => 0)

/-- The length of the burst a lane would ask for (R122). -/
def Lane.burstLength (l : Lane) : Nat := min 16 l.remainder

/-- A lane of an active engine has a request ready (R122). -/
def Engine.ready (e : Engine) (id : LaneId) : Bool :=
  e.active && (id == .main || e.old.isSome) && (e.outstanding id).isNone && decide (0 < (e.lane id).remainder) &&
    decide ((e.lane id).burstLength ≤ e.free id)

/-- The lane whose request the engine offers: the ready lane that holds fewer words, the old lane at equality (R123). -/
def Engine.offer (e : Engine) : Option LaneId :=
  match e.ready .old, e.ready .main with
  | true, true => if (e.lane .old).words.length ≤ (e.lane .main).words.length then some .old else some .main
  | true, false => some .old
  | false, true => some .main
  | false, false => none

/-- The engine is waiting at the arbiter, urgently or not (R123). -/
def Engine.waiting (e : Engine) (urgent : Bool) : Bool :=
  match e.offer with
  | some id => urgent == decide ((e.lane id).words.length < Config.urgentBelow)
  | none => false

/-- Every burst in flight is marked stale (R118, R119). -/
def Engine.staleAll (e : Engine) : Engine := { e with flight := e.flight.map (fun b => { b with stale := true }) }

/-- A lane at the start of a frame carrying a content (R118). -/
def Lane.prepared (c : Content) : Lane :=
  { content := c, words := [], fetchRow := 0, remainder := if 0 < c.rIn ∧ 0 < c.cIn then c.words else 0
    lastPixel := none, underran := false }

/-- The fetch engine prepared for a frame from the scan context and the link state at its start (R118, R119). -/
def Engine.prepare (scan : Scan) (link : LinkState) (e : Engine) : Engine :=
  { e.staleAll with
    main := .prepared scan.shown
    old := scan.fade.map (fun f => .prepared f.old)
    active := link.carries
    sendRow := 0
    sendCol := 0 }

/-- The engine becomes inactive at once: lanes emptied, bursts stale (R119). -/
def Engine.deactivate (e : Engine) : Engine :=
  { e.staleAll with
    active := false
    main := { e.main with words := [] }
    old := e.old.map (fun l => { l with words := [] }) }

/-- A granted request: the lane's remainder falls by the burst length, and the fetch row advances at its end (R122). -/
def Lane.granted (l : Lane) : Lane :=
  let left := l.remainder - l.burstLength
  if left = 0 then
    { l with fetchRow := l.fetchRow + 1
             remainder := if l.fetchRow + 1 < l.content.rIn then l.content.words else 0 }
  else { l with remainder := left }

/-- Word address of the first word of a lane's next burst (R122, R28). -/
def Lane.burstStart (l : Lane) : Nat := l.content.rowStart l.fetchRow + (l.content.words - l.remainder)

/-! ## Taking a pixel (R121, R125, R126) -/

/-- A pixel of a word: the first 32 bits for the even column, the second for the odd one, in the order R, G, B, unused
(section 5.3, log entry 35). -/
def pixelOf (w : Word) (second : Bool) : Rgb :=
  let o := if second then 32 else 0
  { r := w.extractLsb' o 8, g := w.extractLsb' (o + 8) 8, b := w.extractLsb' (o + 16) 8 }

/-- The fetch of a lane abandons row `r` after an underrun (R126). -/
def Lane.abandon (r : Nat) (l : Lane) : Lane :=
  if l.fetchRow = r then
    { l with fetchRow := r + 1, remainder := if r + 1 < l.content.rIn then l.content.words else 0, underran := true }
  else { l with underran := true }

/-- The value a lane gives for a position, the lane after it, and whether it underruns there (R121, R125). -/
def Lane.take (fill : Rgb) (r c : Nat) (l : Lane) : Rgb × Lane × Bool :=
  if l.content.rIn ≤ r ∨ l.content.cIn ≤ c then (fill, l, false)
  else if l.underran then (l.lastPixel.getD fill, l, false)
  else
    match l.words with
    | [] => (l.lastPixel.getD fill, l.abandon r, true)
    | w :: rest =>
      if w.row = r then
        let at2 := (l.content.x0 % 2 + c) % 2
        let px := pixelOf w.data (decide (at2 = 1))
        (px, { l with words := if at2 = 1 ∨ c + 1 = l.content.cIn then rest else w :: rest, lastPixel := some px },
          false)
      else (l.lastPixel.getD fill, l.abandon r, true)

/-- The lane's burst for an abandoned row becomes stale (R126). -/
def Engine.staleRow (id : LaneId) (r : Nat) (e : Engine) : Engine :=
  { e with flight := e.flight.map (fun b => if b.lane = id ∧ b.row = r then { b with stale := true } else b) }

/-- One lane of an engine gives its value for the send position. -/
def Engine.takeLane (id : LaneId) (fill : Rgb) (e : Engine) : Rgb × Engine × Bool :=
  let t := (e.lane id).take fill e.sendRow e.sendCol
  let e' := e.setLane id t.2.1
  (t.1, if t.2.2 then e'.staleRow id e.sendRow else e', t.2.2)

/-- At the end of a row both lanes go to the next with no pixel sent in it (R121). -/
def Engine.nextPosition (width : Nat) (e : Engine) : Engine :=
  if e.sendCol + 1 < width then { e with sendCol := e.sendCol + 1 }
  else
    let fresh (l : Lane) : Lane := { l with lastPixel := none, underran := false }
    { e with sendRow := e.sendRow + 1, sendCol := 0, main := fresh e.main, old := e.old.map fresh }

/-- An underrun has been taken in the present row (R127). -/
def Engine.rowUnderran (e : Engine) : Bool := e.main.underran || (e.old.map (·.underran)).getD false

/-- The colour of a content's fill positions: its own fill, or the profile's idle fill (R29, R30). -/
def Content.fillOf (idle : Rgb) (c : Content) : Rgb := c.fill.getD idle

/-- The value the mixer makes of the contents in use at the send position, the engine after both lanes are read, and how
many lanes underran (R107, R108, R121). -/
def Engine.mixed (idle : Rgb) (fade : Option Fade) (e : Engine) : Rgb × Engine × Nat :=
  match e.old, fade with
  | some l, some f =>
    let a := e.takeLane .old (l.content.fillOf idle)
    let b := a.2.1.takeLane .main (e.main.content.fillOf idle)
    (mixRgb a.1 b.1 f.n f.step, b.2.1, a.2.2.toNat + b.2.2.toNat)
  | some _, none =>
    let b := e.takeLane .main (e.main.content.fillOf idle)
    (b.1, b.2.1, b.2.2.toNat)
  | none, _ =>
    let b := e.takeLane .main (e.main.content.fillOf idle)
    (b.1, b.2.1, b.2.2.toNat)

/-- The next pixel of a tile in an active frame: mixed, levelled and sent, and the underruns it takes counted once a row
(R112, R121, R127). -/
def Tile.takePixel (p : Profile) (size : Nat × Nat) (t : Tile) : Tile × Nat :=
  let m := t.engine.mixed p.idleFill t.scan.fade
  let counted : Engine :=
    if 0 < m.2.2 ∧ !t.engine.rowUnderran then { m.2.1 with underruns := saturate16 (m.2.1.underruns + 1) } else m.2.1
  ({ t with engine := counted.nextPosition size.1
            link := { t.link with sent := some (t.scan.levelRgb p.duskScale m.1) } }, m.2.2)

/-- The link sends the next pixel of a black frame, in rows of the given width (R135). -/
def Link.sendBlack (width : Nat) (l : Link) : Link :=
  let next := if l.blackCol + 1 < width then (l.blackRow, l.blackCol + 1) else (l.blackRow + 1, 0)
  { l with sent := some ⟨0, 0, 0⟩, blackRow := next.1, blackCol := next.2 }

/-- The frame that goes out on tile k's link is the one prepared: its successor's header has not been sent (log entry 9). -/
def State.sending (s : State) (k : Nat) : Bool :=
  s.ftg.running && decide (k < s.prof.tiles) && !(s.tile k).link.stepped

/-- LINK_TAKES_PIXEL without its outcome: in an active frame the next position is sent; in a black frame the link sends
black and the scanner is not touched; after the last of the h rows of w pixels nothing is sent (R119, R121, R135). -/
def linkTakesPixel (k : Nat) (s : State) : State :=
  if !s.sending k then s
  else if (s.tile k).engine.active then
    if (s.prof.size k).2 ≤ (s.tile k).engine.sendRow then s
    else
      let r := (s.tile k).takePixel s.prof (s.prof.size k)
      let s' := s.setTile k r.1
      if 0 < r.2 then raise .underrun s' else s'
  else if (s.prof.size k).2 ≤ (s.tile k).link.blackRow then s
  else s.updTile k (fun t => { t with link := t.link.sendBlack (s.prof.size k).1 })

/-- The bursts in flight once words of the burst `b` have arrived: it stays with the words left, and leaves when there are
none (R124). -/
def flightAfter (a : Arrival) (b : Burst) (flight : List Burst) : List Burst :=
  if b.words.length ≤ a.count then flight.eraseIdx a.burst
  else flight.set a.burst { b with words := b.words.drop a.count }

/-- BURST_ARRIVAL without its outcome: the next words of a burst in flight join the back of their lane in address
order, or are discarded when the burst is stale (R124). -/
def burstArrives (k : Nat) (a : Arrival) (s : State) : State :=
  match (s.tile k).engine.flight[a.burst]? with
  | none => s
  | some b =>
    s.updTile k (fun t =>
      let e := { t.engine with flight := flightAfter a b t.engine.flight }
      let l := e.lane b.lane
      { t with engine :=
          if b.stale then e
          else e.setLane b.lane { l with words := l.words ++ (b.words.take a.count).map (fun w => ⟨b.row, w⟩) } })

/-- LINK_TAKES_PIXEL (R121): the link takes the tile's next pixel position. -/
def execLinkTakesPixel (k : Nat) (s : State) : Host.Outcome State Fault Refusal := .next (linkTakesPixel k s)

/-- BURST_ARRIVAL (R124): words of a granted fetch burst arrive. -/
def execBurstArrival (k : Nat) (a : Arrival) (s : State) : Host.Outcome State Fault Refusal :=
  .next (burstArrives k a s)

end Sys2Proof.Machine
end

