-- ==== Sys2Proof/Machine/Links.lean ====
section
/-! DEFINITION. The Tile Link Controllers (chapter 8), with the meanings of ECHO, DESCRIPTOR and of the link transitions
that the opcode table lists as steps of their own. -/

namespace Sys2Proof.Machine

/-- The transition a controller makes at a frame start (section 8.2). -/
inductive LinkEvent where
  | quiet
  | graceExpired
  | joinComplete
  | rejoin
  | lostTimeout
  | absentIdentify
  | trainingTimeout
deriving DecidableEq, Repr

/-- The tag of a frame: its number modulo 256 (R2). -/
def frameTag (frame : Nat) : Byte := BitVec.ofNat 8 frame

/-- A frame is good when an echo received during it carries its tag (R136). -/
def Link.good (frame : Nat) (l : Link) : Bool := l.echoes.contains (frameTag frame)

/-- Link states whose frames are judged for grace (R136, R142). -/
def LinkState.graced : LinkState → Bool
  | .joining | .inStep | .misfit => true
  | .absent | .training | .lost => false

/-- The link enters TRAINING and owes an IDENTIFY to the frame now starting (R138, R143). -/
def Link.toTraining (l : Link) : Link := { l with state := .training, timer := 0, identifyDue := true }

/-- Grace is applied to the frame just ended (R142): the link after it. -/
def Link.applyGrace (frame : Nat) (l : Link) : Link :=
  if l.startState.graced then
    if l.good frame then { l with missRun := 0 }
    else { l with missCount := saturate16 (l.missCount + 1), missRun := l.missRun + 1 }
  else l

/-- The action of a controller in JOINING, IN_STEP or MISFIT at a frame start: judgement and grace, then the join count
(R141, R142). -/
def Link.stepGraced (frame grace horizon : Nat) (l : Link) : Link × LinkEvent :=
  let g := l.applyGrace frame
  if l.startState.graced && !l.good frame && decide (grace ≤ g.missRun) then
    ({ g with state := .lost, timer := 0, missRun := 0 }, .graceExpired)
  else if l.state = .joining ∧ l.startState.carries = true then
    if horizon ≤ g.joinCount + 1 then ({ g with joinCount := g.joinCount + 1, state := .inStep }, .joinComplete)
    else ({ g with joinCount := g.joinCount + 1 }, .quiet)
  else (g, .quiet)

/-- The action of a controller at a frame start, the frame just ended being `frame` (R138, R139, R141 to R143). Its
echoes are then those of the new frame. -/
def Link.atFrameStart (frame grace horizon : Nat) (l : Link) : Link × LinkEvent :=
  let r : Link × LinkEvent :=
    match l.state with
    | .absent =>
      if Config.absentFrames ≤ l.timer + 1 then (l.toTraining, .absentIdentify)
      else ({ l with timer := l.timer + 1 }, .quiet)
    | .training =>
      if Config.trainingFrames ≤ l.timer + 1 then ({ l with state := .absent, timer := 0 }, .trainingTimeout)
      else ({ l with timer := l.timer + 1 }, .quiet)
    | .lost =>
      if l.startState = .lost ∧ l.good frame = true then (l.toTraining, .rejoin)
      else if Config.absentFrames ≤ l.timer + 1 then ({ l with state := .absent, timer := 0 }, .lostTimeout)
      else ({ l with timer := l.timer + 1 }, .quiet)
    | .joining => l.stepGraced frame grace horizon
    | .inStep => l.stepGraced frame grace horizon
    | .misfit => l.stepGraced frame grace horizon
  ({ r.1 with echoes := [] }, r.2)

/-- Entries into LOST and IN_STEP raise TILE (R148). -/
def LinkEvent.raisesTile : LinkEvent → Bool
  | .graceExpired | .joinComplete => true
  | .quiet | .rejoin | .lostTimeout | .absentIdentify | .trainingTimeout => false

/-- The header of the frame now starting goes out, with IDENTIFY when one is owed; its rows begin at the first position,
and the state at its start is kept for what R135, R136 and R141 ask of it. -/
def Link.sendHeader (frame : Nat) (l : Link) : Link :=
  { l with header := some ⟨frameTag frame, l.identifyDue⟩, identifyDue := false, startState := l.state,
           blackRow := 0, blackCol := 0 }

/-- Tile k's controller takes its action at the start of frame now + 1, ending with that frame's header, and its engine
follows a lost link (R119, R135, R142). -/
def stepLink (k : Nat) (s : State) : State :=
  let t := s.tile k
  let r := t.link.atFrameStart s.now s.prof.grace s.horizon
  let s' := s.setTile k { t with
    link := r.1.sendHeader (s.now + 1), engine := if r.1.state.carries then t.engine else t.engine.deactivate }
  if r.2.raisesTile then raise .tile s' else s'

/-- At a frame start each controller of a tile below T takes its action, unless it has taken it already (log entry 9). -/
def stepLinkUnlessDone (k : Nat) (s : State) : State :=
  if s.prof.tiles ≤ k then s
  else if (s.tile k).link.stepped then s.updTile k (fun t => { t with link := { t.link with stepped := false } })
  else stepLink k s

/-- A controller's frame-start action taken ahead of the rest of the coming frame start, when it makes the given
transition (log entry 9). -/
def linkAhead (event : LinkEvent) (k : Nat) (s : State) : State :=
  if s.ftg.running ∧ k < s.prof.tiles ∧ k < s.tiles.length ∧ (s.tile k).link.stepped = false ∧
      ((s.tile k).link.atFrameStart s.now s.prof.grace s.horizon).2 = event then
    (stepLink k s).updTile k (fun t => { t with link := { t.link with stepped := true } })
  else s

/-- A panel that fits the profile: latency within Lmax and the expected size (R140). -/
def panelFits (p : Profile) (k : Nat) (d : PanelDescriptor) : Bool :=
  decide (d.latency ≤ p.lmax ∧ (d.width, d.height) = p.size k)

/-- ECHO without its outcome (R136): the tag is counted in the current frame. -/
def takeEcho (k : Nat) (tag : Byte) (s : State) : State :=
  if s.ftg.running ∧ k < s.prof.tiles then
    s.updTile k (fun t => { t with link := { t.link with echoes := t.link.echoes ++ [tag] } })
  else s

/-- DESCRIPTOR without its outcome (R137, R140): taken in TRAINING only. -/
def takeDescriptor (k : Nat) (d : PanelDescriptor) (s : State) : State :=
  if s.ftg.running ∧ k < s.prof.tiles ∧ (s.tile k).link.state = .training then
    if panelFits s.prof k d then
      s.updTile k (fun t => { t with link := { t.link with descriptor := some d, state := .joining, joinCount := 0,
                                                           missRun := 0 } })
    else
      raise .tile (s.updTile k (fun t =>
        { t with link := { t.link with descriptor := some d, state := .misfit, missRun := 0 } }))
  else s

/-- GRACE_EXPIRED (R142): the miss run reaches grace G and the tile enters LOST, raising TILE. -/
def execGraceExpired (k : Nat) (s : State) : Host.Outcome State Fault Refusal := .next (linkAhead .graceExpired k s)

/-- JOIN_COMPLETE (R141): the join count reaches H and the tile enters IN_STEP, raising TILE. -/
def execJoinComplete (k : Nat) (s : State) : Host.Outcome State Fault Refusal := .next (linkAhead .joinComplete k s)

/-- LOST_TIMEOUT (R143): the training timer reaches 60 in LOST and the tile enters ABSENT. -/
def execLostTimeout (k : Nat) (s : State) : Host.Outcome State Fault Refusal := .next (linkAhead .lostTimeout k s)

/-- ABSENT_IDENTIFY (R138): the training timer reaches 60 in ABSENT, IDENTIFY is sent and the tile enters TRAINING. -/
def execAbsentIdentify (k : Nat) (s : State) : Host.Outcome State Fault Refusal := .next (linkAhead .absentIdentify k s)

/-- TRAINING_TIMEOUT (R139): the training timer reaches 30 without a descriptor and the tile returns to ABSENT. -/
def execTrainingTimeout (k : Nat) (s : State) : Host.Outcome State Fault Refusal :=
  .next (linkAhead .trainingTimeout k s)

/-- ECHO (R136): an echo message from a panel is taken and counted in the current frame. -/
def execEcho (k : Nat) (tag : Byte) (s : State) : Host.Outcome State Fault Refusal := .next (takeEcho k tag s)

/-- DESCRIPTOR (R140): a descriptor taken in TRAINING is kept, and the tile goes to JOINING or MISFIT. -/
def execDescriptor (k : Nat) (d : PanelDescriptor) (s : State) : Host.Outcome State Fault Refusal :=
  .next (takeDescriptor k d s)

end Sys2Proof.Machine
end

