-- ==== Sys2Proof/Machine/Settings.lean ====
section
/-! DEFINITION. The Settings Store Controller's jobs (chapter 10, sections 10.6 and 10.7), with the meanings of
BYTE_WRITE_DONE and BYTE_WRITE_FAILED. -/

namespace Sys2Proof.Machine

/-- The positions 1..510 whose new value differs from the image copy, or whose byte in the copy is unknown (R171). -/
def changedPositions (image : List (Option Byte)) (content : List Byte) : List Nat :=
  ((List.range 510).map (· + 1)).filter (fun p => decide (image.getD p none ≠ some (content.getD p 0)))

/-- The check byte of a new content with the marker at its fixed value (R171 step 3). -/
def contentCheck (content : List Byte) : Byte := imageMarker + byteSum ((content.drop 1).take 510)

/-- The byte writes that put a new content into the image: none when no byte changes; otherwise the marker to 0, the
changed bytes in ascending order, the check byte, and the marker to its fixed value (R171). -/
def contentWrites (image : List (Option Byte)) (content : List Byte) : List (Nat × Byte) :=
  let changed := changedPositions image content
  if changed = [] then []
  else (0, 0) :: changed.map (fun p => (p, content.getD p 0)) ++ [(511, contentCheck content), (0, imageMarker)]

/-- The image copy's bytes with the codes of a TRIM job's entries put in, in list order (R172). -/
def trimContent (image : List (Option Byte)) (entries : List TrimEntry) : List Byte :=
  entries.foldl
    (fun c e =>
      let c' := match e.street with
        | some v => c.set (streetPosition e.tile) (BitVec.ofNat 8 v)
        | none => c
      match e.dusk with
      | some v => c'.set (duskPosition e.tile) (BitVec.ofNat 8 v)
      | none => c')
    (image.map (·.getD 0))

/-- The trim bytes of the codes the sixteen tiles hold, in image order (section 12.3). -/
def trimBytes (tiles : List Tile) : List Byte :=
  (tiles.map (fun t => [BitVec.ofNat 8 t.scan.street, BitVec.ofNat 8 t.scan.dusk])).flatten

/-- The whole content of a profile write: marker, version, the adopted profile block, the trim codes held, and the image
copy's values, or 0 for unknown ones, where bytes have no meaning (R169). -/
def profileContent (image : List (Option Byte)) (p : Profile) (tiles : List Tile) : List Byte :=
  [imageMarker, imageVersion] ++ p.block ++ trimBytes tiles ++ (image.drop 130).map (·.getD 0)

/-- The command whose CMD result waits for a job of a kind (R169, R173). -/
def JobKind.command : JobKind → Option Command
  | .trim => none
  | .profile => some .adoptProfile
  | .invalidate => some .invalidateStore

/-- The main record with a BUSY result of the given command become `result`; any other main record is kept (R176). -/
def Window.finish (command : Command) (result : Result) (w : Window) : Window :=
  match w.main with
  | some r => if r.code = command.code ∧ r.result = .busy then { w with main := some { r with result := result } } else w
  | none => w

/-- A job ends: the slot empties, the controller is IDLE, the store result is set and awaits a refresh, and a CMD result
that waits for it becomes DONE (R171, R173). -/
def endJob (kind : JobKind) (outcome : JobOutcome) (s : State) : State :=
  let s' := (s.setStore { s.store with job := none, state := .idle, result := some (kind, outcome) }).setReport
    { s.report with resultNew := true }
  match kind.command with
  | some c => s'.setWindow (s'.window.finish c .done)
  | none => s'

/-- A job is placed in the empty slot and its first byte write begins; a job with no writes ends at once, DONE (R171). -/
def placeJob (kind : JobKind) (writes : List (Nat × Byte)) (s : State) : State :=
  if writes = [] then endJob kind .done s
  else s.setStore { s.store with job := some ⟨kind, writes⟩, state := .writing }

/-- A persist job of TRIM codes is offered: refused when the slot holds a job; ended at once with NO_IMAGE when the image
is not valid; otherwise carried out (R162, R172). The answer tells whether it was accepted. A second job of the same
frame is accepted where the first has ended at once, with NO_IMAGE or no changed byte (DESIGN CHOICE, log entry 41). -/
def offerTrimJob (entries : List TrimEntry) (s : State) : State × Bool :=
  if s.store.job.isSome then (s, false)
  else if s.store.valid then
    (placeJob .trim (contentWrites s.store.image (trimContent s.store.image entries)) s, true)
  else (endJob .trim .noImage s, true)

/-- The store after the byte write in progress has left `now` in the EEPROM and `copy` in the image copy, with the
image-valid flag kept current (R163). -/
def Store.wrote (position : Nat) (now : Byte) (copy : Option Byte) (c : Store) : Store :=
  { c with eeprom := c.eeprom.set position now, image := c.image.set position copy,
           valid := imageValid (c.image.set position copy) }

/-- BYTE_WRITE_DONE without its outcome. -/
def byteWritten (s : State) : State :=
  match s.store.job with
  | none => s
  | some ⟨_, []⟩ => s
  | some ⟨kind, (p, v) :: rest⟩ =>
    let s' := s.setStore (s.store.wrote p v (some v))
    if rest = [] then endJob kind .done s' else s'.setStore { s'.store with job := some ⟨kind, rest⟩ }

/-- What the EEPROM holds at a position whose byte write FAILED: a free value, but that a failed profile write or
invalidation leaves a marker that fails its check (R169, R173; log entry 3). -/
def failedByte (kind : JobKind) (position : Nat) (free : Byte) : Byte :=
  if kind ≠ .trim ∧ position = 0 ∧ free = imageMarker then 0 else free

/-- BYTE_WRITE_FAILED without its outcome. -/
def byteFailed (s : State) : State :=
  match s.store.job with
  | none => s
  | some ⟨_, []⟩ => s
  | some ⟨kind, (p, _) :: _⟩ =>
    endJob kind .failed
      ((s.setStore (s.store.wrote p (failedByte kind p (Config.freeByte s.freeIndex)) none)).setFreeIndex
        (s.freeIndex + 1))

/-- What a device reset leaves in the EEPROM: the byte whose write it cuts is erased or has its new value (R170). -/
def Store.cut (how : CutByte) (c : Store) : List Byte :=
  match c.job with
  | none => c.eeprom
  | some ⟨_, []⟩ => c.eeprom
  | some ⟨_, (p, v) :: _⟩ => c.eeprom.set p (match how with | .erased => 0xFF | .written => v)

/-- BYTE_WRITE_DONE (R170): the image copy takes the byte and the job's next write begins, or the job ends DONE. -/
def execByteWriteDone (s : State) : Host.Outcome State Fault Refusal := .next (byteWritten s)

/-- BYTE_WRITE_FAILED (R170): the byte becomes unknown and the job ends FAILED. -/
def execByteWriteFailed (s : State) : Host.Outcome State Fault Refusal := .next (byteFailed s)

end Sys2Proof.Machine
end

