-- ==== Sys2Proof/Machine/Commit.lean ====
section
/-! DEFINITION. The Commit Unit: switches, level requests, the room and budget checks, commit attempts, taking of
switches, and the completion and release of cues (chapter 5), with the meaning of COMMIT_DECISION. -/

namespace Sys2Proof.Machine

/-! ## Pending switch lists (R83, R86, R87) -/

/-- A switch joins a pending list after every entry with an earlier or equal switch frame (R87). -/
def insertSwitch (sw : Switch) : List Switch → List Switch
  | [] => [sw]
  | x :: rest => if x.frame ≤ sw.frame then x :: insertSwitch sw rest else sw :: x :: rest

/-- A place is free in tile k's pending list, an entry due in the present frame counted as gone (R83). -/
def State.pendingRoom (s : State) (k : Nat) : Bool :=
  decide ((s.tile k).switches.countP (fun sw => sw.frame != s.now) < Config.pendingDepth)

/-- A switch of visible frame `visible` is placed in tile k's list (R86, R87). -/
def placeSwitch (k visible : Nat) (body : SwitchBody) (s : State) : State :=
  s.updTile k (fun t => { t with switches := insertSwitch ⟨s.switchFrame k visible, body⟩ t.switches })

/-- The commit count rises by 1 (R87). -/
def countCommit (s : State) : State := s.setCommit { s.commit with commitCount := s.commit.commitCount + 1 }

/-- The level request is placed in every list of tiles 0..T − 1 when each has room (R89). -/
def tryLevelRequest (s : State) : State :=
  match s.commit.levelRequest with
  | none => s
  | some q =>
    if (List.range s.prof.tiles).all s.pendingRoom then
      forTiles s.prof.tiles (fun k s => placeSwitch k q.visible (.level q.set) s)
        (countCommit (s.setCommit { s.commit with levelRequest := none }))
    else s

/-- A set change is handed to the Commit Unit in the current frame and tried at once (R89, R158). -/
def requestLevel (set : LevelSet) (s : State) : State :=
  tryLevelRequest (s.setCommit { s.commit with levelRequest := some ⟨set, s.now + s.horizon⟩ })

/-- At a frame start a waiting request is tried with V raised to now + H (R89). -/
def retryLevelRequest (s : State) : State :=
  match s.commit.levelRequest with
  | none => s
  | some q => requestLevel q.set s

/-! ## Switches taken (R90, R97, R101) -/

/-- The showing-table entries committed before a pass; none when the pass is not in the table. -/
def earlierPasses (id : PassId) (l : List ShowEntry) : List PassId :=
  if l.any (·.id == id) then (l.takeWhile (fun e => e.id != id)).map (·.id) else []

/-- A scene switch of one of the given passes. -/
def Switch.isSceneOf (ids : List PassId) (sw : Switch) : Bool :=
  match sw.body with
  | .scene _ _ _ _ _ cue => ids.contains cue
  | .trim _ _ => false
  | .level _ => false

def Switch.isScene (sw : Switch) : Bool :=
  match sw.body with
  | .scene _ _ _ _ _ _ => true
  | .trim _ _ => false
  | .level _ => false

/-- Tile k has taken a scene switch of a pass: it leaves the held-tile set of every entry committed before it, and older
scene switches leave its pending list (R90). For a FADE too this is at the taking, as section 5.9 shows; the RELEASED write
that follows does not reach show memory before the fade has let go of the old content (R24, R93; `presented`). -/
def sceneTaken (k : Nat) (id : PassId) (s : State) : State :=
  let before := earlierPasses id s.commit.showing
  (s.setCommit { s.commit with
      showing := s.commit.showing.map (fun e => if before.contains e.id then { e with held := e.held.erase k } else e) }
    ).updTile k (fun t => { t with switches := t.switches.filter (fun sw => !sw.isSceneOf before) })

/-- Tile k takes one entry of its pending list (R102 to R106). -/
def takeSwitch (k : Nat) (s : State) (sw : Switch) : State :=
  match sw.body with
  | .scene plate x0 y0 fill transition cue =>
    sceneTaken k cue (s.updTile k (fun t =>
      { t with scan := t.scan.takeScene (contentOf (s.prof.size k) plate x0 y0 fill) transition cue }))
  | .trim street dusk => s.updTile k (fun t => { t with scan := t.scan.takeTrim street dusk })
  | .level set => s.updTile k (fun t => { t with scan := t.scan.takeLevel set })

/-- Tile k takes its stop switch when its frame is the one now starting (R97). -/
def takeStop (k : Nat) (s : State) : State :=
  if (s.tile k).stopAt = some s.now then
    (s.updTile k (fun t => { t with scan := t.scan.clear, stopAt := none,
                                    switches := t.switches.filter (fun sw => !sw.isScene) })).setCommit
      { s.commit with showing := s.commit.showing.map (fun e => { e with held := e.held.erase k }) }
  else s

/-- The scan context of tile k is brought up to date at a frame start, in the sequence of R101. -/
def scanTile (k : Nat) (s : State) : State :=
  let due := (s.tile k).switches.filter (fun sw => sw.frame == s.now)
  let s' := s.updTile k (fun t =>
    { t with scan := if s.window.resetTaken then t.scan.clear else t.scan.advanceFade,
             switches := t.switches.filter (fun sw => sw.frame != s.now) })
  takeStop k (due.foldl (takeSwitch k) s')

/-! ## Completion and release (R92 to R94) -/

/-- How long ago a commit-count value was given; the count wraps at 2^32. -/
def commitAge (s : State) (pass : BitVec 32) : Nat := (s.commit.commitCount - pass).toNat

/-- A cue that reaches its visible frame. -/
inductive Reaching where
  | scene (e : ShowEntry)
  | due (e : DueEntry)
deriving DecidableEq, Repr

def Reaching.pass : Reaching → BitVec 32
  | .scene e => e.id.pass
  | .due e => e.pass

/-- Insertion into a list in commit order, oldest first. -/
def insertReaching (s : State) (x : Reaching) : List Reaching → List Reaching
  | [] => [x]
  | y :: rest => if commitAge s x.pass ≤ commitAge s y.pass then y :: insertReaching s x rest else x :: y :: rest

/-- The cues that reach their visible frame in the present frame, in commit order (R92). -/
def State.reaching (s : State) : List Reaching :=
  let scenes := (s.commit.showing.filter (fun e => e.visible == s.now && !e.shown)).map Reaching.scene
  let dues := (s.commit.due.filter (fun e => e.visible == s.now)).map Reaching.due
  dues.foldl (fun l x => insertReaching s x l) scenes

/-- A showing-table entry becomes visible and its SHOWN write is handed on (R92). -/
def showScene (e : ShowEntry) (s : State) : State :=
  handOn e.id.record (.sceneShown e.degraded e.clipped e.overBudget)
    (s.setCommit { s.commit with
      showing := s.commit.showing.map (fun x => if x.id = e.id then { x with shown := true } else x) })

/-- What a due cue does at its visible frame beside its write: a MARK's tag is handed to the Report Writer, and a PERSIST
TRIM offers its job, the answer being PERSIST_REFUSED (R94). -/
def dueEffect (e : DueEntry) (s : State) : State × Bool :=
  match e.body with
  | .scene _ => (s, false)
  | .clock _ => (s, false)
  | .mark tag => (s.setReport { s.report with tag := tag, tagNew := true }, false)
  | .trim entries =>
    if e.persist then
      let r := offerTrimJob entries s
      (r.1, !r.2)
    else (s, false)

/-- A due-list entry is completed and removed, and DONE, or SHOWN for a KEEP cue, is handed on (R94). -/
def completeDue (e : DueEntry) (s : State) : State :=
  let s1 := s.setCommit { s.commit with due := s.commit.due.filter (fun x => x.pass != e.pass) }
  let r := dueEffect e s1
  handOn e.record
    (if e.keep then .keepShown e.visible e.slip e.late r.2 else .done e.visible e.slip e.late r.2) r.1

def completeReaching (s : State) (x : Reaching) : State :=
  match x with
  | .scene e => showScene e s
  | .due e => completeDue e s

/-- An entry that is visible and held by no tile (R93). -/
def ShowEntry.released (e : ShowEntry) : Bool := e.shown && e.held.isEmpty

/-- Every released entry leaves the table, and RELEASED is handed on for a non-KEEP one, in commit order (R93). -/
def releaseScenes (s : State) : State :=
  (s.commit.showing.filter (·.released)).foldl
    (fun s e => if e.keep then s else handOn e.id.record .released s)
    (s.setCommit { s.commit with showing := s.commit.showing.filter (fun e => !e.released) })

/-- At the stop frame the stop is complete: STANDBY, and the CMD result goes from BUSY to DONE (R97). -/
def completeStop (s : State) : State :=
  if s.commit.stopFrame = some s.now then
    let s' := s.setCommit { s.commit with stopFrame := none }
    s'.setWindow ({ s'.window with wall := .standby }.finish .stop .done)
  else s

/-! ## Checks of an attempt (R81 to R85) -/

/-- The plate indexes of a scene, each once, in order of first appearance (R21, R132). -/
def platesOf (l : List Assignment) : List Nat := (l.map (·.plate)).eraseDups

/-- The copy of a plate-table entry an attempt read; an index it did not read is an EMPTY entry. -/
def Attempt.plate (a : Attempt) (index : Nat) : PlateEntry :=
  (a.plates.lookup index).getD { state := .empty, base := 0, width := 0, height := 0, stride := 0 }

/-- Position and plate index of the first assignment whose entry is invalid (R22). -/
def firstInvalid (a : Attempt) : Nat → List Assignment → Option (Nat × Nat)
  | _, [] => none
  | i, x :: rest => if (a.plate x.plate).invalid then some (i, x.plate) else firstInvalid a (i + 1) rest

/-- A place is free for a scene: one in the showing table and one in each assigned tile's pending list (R83). -/
def sceneRoom (l : List Assignment) (s : State) : Bool :=
  decide (s.commit.showing.length < Config.showingDepth) && l.all (fun x => s.pendingRoom x.tile)

/-- A place is free for a cue that is not a scene: one in the due list, and for a TRIM one in each named tile's list. -/
def dueRoom (body : CueBody) (s : State) : Bool :=
  decide (s.commit.due.length < Config.dueDepth) &&
    match body with
    | .trim entries => entries.all (fun x => s.pendingRoom x.tile)
    | .scene _ => true
    | .clock _ => true
    | .mark _ => true

/-- The content of a scene switch on tile k. -/
def sceneContent (s : State) (k : Nat) (sw : Switch) : Option Content :=
  match sw.body with
  | .scene plate x0 y0 fill _ _ => some (contentOf (s.prof.size k) plate x0 y0 fill)
  | .trim _ _ => none
  | .level _ => none

/-- What tile k would show at V if a cue did not assign it: the last scene switch of its pending list, or else what its
scan context shows (R84). -/
def contentBefore (s : State) (k : Nat) : Content :=
  (((s.tile k).switches.filterMap (sceneContent s k)).getLast?).getD (s.tile k).scan.shown

/-- The content an assignment gives its tile. -/
def assignedContent (s : State) (a : Attempt) (x : Assignment) : Content :=
  contentOf (s.prof.size x.tile) (a.plate x.plate).snapshot x.x0 x.y0 x.fill

/-- The tiles counted in the demands: those whose link carries content (R84). -/
def countedTiles (s : State) : List Nat :=
  (List.range s.prof.tiles).filter (fun k => (s.tile k).link.state.carries)

/-- Words per frame of tile k's content at V (R84). -/
def wordsAtV (s : State) (a : Attempt) (l : List Assignment) (k : Nat) : Nat :=
  match l.find? (fun x => x.tile == k) with
  | some x => (assignedContent s a x).wordsPerFrame
  | none => (contentBefore s k).wordsPerFrame

/-- The cut demand of a scene in words per frame (R84). -/
def cutDemand (s : State) (a : Attempt) (l : List Assignment) : Nat :=
  ((countedTiles s).map (wordsAtV s a l)).sum

/-- The fade demand of a scene in words per frame (R84). -/
def fadeDemand (s : State) (a : Attempt) (l : List Assignment) : Nat :=
  cutDemand s a l +
    (((countedTiles s).filter (fun k => l.any (fun x => x.tile == k))).map
      (fun k => (contentBefore s k).wordsPerFrame)).sum

/-- The budget check: the transition as decided, DEGRADED and OVER_BUDGET (R85). -/
def budgetCheck (s : State) (a : Attempt) (l : List Assignment) (t : Transition) : Transition × Bool × Bool :=
  let budget := s.prof.budget * 1024
  let exceeds := decide (budget < cutDemand s a l)
  match t with
  | .cut => (.cut, false, exceeds)
  | .fade n =>
    let degraded := decide (1 ≤ n ∧ budget < fadeDemand s a l)
    (if degraded || exceeds then .cut else .fade n, degraded, exceeds)

/-- CLIPPED: some assignment shows fill on its tile (R29). -/
def sceneClipped (s : State) (a : Attempt) (l : List Assignment) : Bool :=
  l.any (fun x => (assignedContent s a x).clipped (s.prof.size x.tile))

/-! ## Commit (R57, R87, R88, R91) -/

/-- The entry of a committed cue leaves the queue, and its V becomes the last committed frame (R57, R74). -/
def leaveCommitted (record v : Nat) (s : State) : State :=
  leaveQueue record (s.setScheduler { s.scheduler with lastFrame := some v })

/-- A SCENE cue commits: showing-table entry, switches, COMMITTED write, last committed scene (R57, R88, R91). -/
def commitScene (v : Eval) (visible : Nat) (a : Attempt) (l : List Assignment) (s : State) : State :=
  let c := v.entry.cue
  let decided := budgetCheck s a l c.transition
  let s1 := countCommit s
  let id : PassId := ⟨c.record, s1.commit.commitCount⟩
  let dwellEnd := if c.dwell = 0 then none else some (visible + c.dwell)
  let s2 := s1.setCommit { s1.commit with showing := s1.commit.showing ++
    [{ id := id, visible := visible, dwellEnd := dwellEnd, held := l.map (·.tile), shown := false,
       degraded := decided.2.1, clipped := sceneClipped s a l, overBudget := decided.2.2, keep := c.keep }] }
  let s3 := l.foldl (fun s x =>
    placeSwitch x.tile visible (.scene (a.plate x.plate).snapshot x.x0 x.y0 x.fill decided.1 id) s) s2
  let s4 := enqueueOutcome c.record (.committed visible v.slip v.entry.late) s3
  leaveCommitted c.record visible (s4.setScheduler { s4.scheduler with
    lastScene := some { id := id, visible := visible, dwell := c.dwell, dwellEnd := dwellEnd, extend := c.extend } })

/-- What a committed cue that is not a scene hands on: a TRIM's switches, a CLOCK's clock set (R88). -/
def placeDue (c : Cue) (visible : Nat) (s : State) : State :=
  match c.body with
  | .trim entries => entries.foldl (fun s x => placeSwitch x.tile visible (.trim x.street x.dusk) s) s
  | .clock value =>
    clockCommitted c.record visible
      (s.setFtg { s.ftg with clockSets := addClockSet visible value c.record s.ftg.clockSets })
  | .mark _ => s
  | .scene _ => s

/-- A TRIM, CLOCK or MARK cue commits and joins the due list (R88). -/
def commitDue (v : Eval) (visible : Nat) (s : State) : State :=
  let c := v.entry.cue
  let s1 := countCommit s
  let s2 := s1.setCommit { s1.commit with due := s1.commit.due ++
    [{ record := c.record, pass := s1.commit.commitCount, body := c.body, keep := c.keep, visible := visible,
       slip := v.slip, late := v.entry.late, persist := c.persist }] }
  leaveCommitted c.record visible (placeDue c visible s2)

/-! ## Attempts (R78 to R82) -/

/-- The oldest entry, when it was in the queue at this frame start, is resolved and has V_eff = now + H (R61, R78). -/
def State.dueEval (s : State) : Option Eval :=
  match s.oldest with
  | none => none
  | some v => if v.entry.attemptable && decide (v.vEff = some (s.now + s.horizon)) then some v else none

/-- The write queue has room for an attempt to begin (R79). -/
def State.attemptRoom (s : State) : Bool :=
  decide (Config.attemptRoom ≤ s.openPlaces) && s.commit.handoff.isEmpty

/-- The run of attempts of a frame start: due entries are attempted in turn until one must wait for its plate reads, is
deferred, or none is due (R78 to R80). -/
def attemptRun : Nat → State → State
  | 0, s => s
  | n + 1, s =>
    if s.window.wall ≠ .showing ∨ s.commit.attempt.isSome then s
    else
      match s.dueEval with
      | none => s
      | some v =>
        if s.attemptRoom then
          match v.entry.cue.body with
          | .scene l => s.setCommit { s.commit with attempt := some ⟨v.entry.cue.record, platesOf l, []⟩ }
          | .trim _ => if dueRoom v.entry.cue.body s then attemptRun n (commitDue v (s.now + s.horizon) s) else s
          | .clock _ => if dueRoom v.entry.cue.body s then attemptRun n (commitDue v (s.now + s.horizon) s) else s
          | .mark _ => if dueRoom v.entry.cue.body s then attemptRun n (commitDue v (s.now + s.horizon) s) else s
        else s

/-- The attempt in progress ends and its reserved places are freed (R79). -/
def endAttempt (s : State) : State := s.setCommit { s.commit with attempt := none }

/-- The cue is refused BADPLATE with its fault record (R22, R82). -/
def refusePlate (record position index : Nat) (s : State) : State :=
  leaveQueue record
    (enqueue
      (.fault { kind := .badPlate, hold := false, address := BitVec.ofNat 32 record, frame := s.now,
                detail := detailPair position index } false)
      (enqueueOutcome record (.refused .badPlate) s))

/-- The cue is skipped NOT_READY with its slip as it stands (R62, R81). -/
def skipNotReady (v : Eval) (s : State) : State :=
  leaveQueue v.entry.cue.record (enqueueOutcome v.entry.cue.record (.skipped .notReady v.slip) s)

/-- The attempt is deferred for plates: slack used rises by 1 (R81). -/
def chargeSlack (record : Nat) (s : State) : State :=
  mapQueue (fun e => if e.cue.record = record then { e with slackUsed := e.slackUsed + 1 } else e) s

/-- The decision of an attempt whose plate reads have all returned, on the state with the attempt ended (R80 to R88). -/
def decideScene (v : Eval) (a : Attempt) (l : List Assignment) (s : State) : State :=
  let more := attemptRun (s.scheduler.queue.length + 1)
  match firstInvalid a 0 l with
  | some (position, index) => more (refusePlate v.entry.cue.record position index s)
  | none =>
    if l.all (fun x => (a.plate x.plate).isReady) then
      if sceneRoom l s then more (commitScene v (s.now + s.horizon) a l s) else s
    else if v.entry.slackUsed < v.entry.cue.slack then chargeSlack v.entry.cue.record s
    else more (skipNotReady v s)

/-- COMMIT_DECISION without its outcome and DRY: nothing before the attempt's reads have returned; an attempt whose entry
is no longer the due one ends undecided (log entry 16). -/
def commitDecision (s : State) : State :=
  match s.commit.attempt with
  | none => s
  | some a =>
    if a.toRead = [] then
      let s0 := endAttempt s
      match s.dueEval with
      | none => s0
      | some v =>
        match v.entry.cue.body with
        | .scene l => if v.entry.cue.record = a.record then decideScene v a l s0 else s0
        | .trim _ => s0
        | .clock _ => s0
        | .mark _ => s0
    else s

/-- COMMIT_DECISION (R80): the scene cue is refused, skipped, deferred, or passed to its room and budget checks and
committed, and the frame start's run goes on. -/
def execCommitDecision (s : State) : Host.Outcome State Fault Refusal := .next (dryEdge s (commitDecision s))

end Sys2Proof.Machine
end

