-- ==== Sys2Proof/Machine/Ambient.lean ====
section
/-! DEFINITION. The Ambient Unit (chapter 9), with the meanings of AMBIENT_POLL, SENSOR_READING and
SENSOR_READ_FAILURE. -/

namespace Sys2Proof.Machine

/-- The reading of the two bytes of a sensor transaction (R152). -/
def sensorValue (first second : BitVec 8) : Nat := first.toNat * 16 + second.toNat / 16

/-- The other level set. -/
def LevelSet.other : LevelSet → LevelSet
  | .street => .dusk
  | .dusk => .street

/-- The history after a valid reading: filled when empty, otherwise the oldest removed and the new one added (R153). -/
def pushReading (r : Nat) : List Nat → List Nat
  | [] => [r, r, r, r]
  | _ :: rest => rest ++ [r]

/-- The condition to change holds for an average (R154). -/
def changeCondition (p : Profile) (level : LevelSet) (average : Nat) : Bool :=
  match level with
  | .street => decide (average ≤ p.downThreshold)
  | .dusk => decide (p.upThreshold ≤ average)

/-- The ambient state changes: the count starts again, AMBIENT is raised and the change is handed to the Commit Unit
(R154, R158). -/
def changeAmbient (s : State) : State :=
  let new := s.ambient.level.other
  requestLevel new (raise .ambient (s.setAmbient { s.ambient with level := new, confirm := 0 }))

/-- The decision on a new average in AUTO mode; a forced mode decides nothing (R154, R157). -/
def judgeAmbient (average : Nat) (s : State) : State :=
  match s.prof.ambientMode with
  | .auto =>
    if changeCondition s.prof s.ambient.level average then
      if s.prof.confirm ≤ s.ambient.confirm + 1 then changeAmbient s
      else s.setAmbient { s.ambient with confirm := s.ambient.confirm + 1 }
    else s.setAmbient { s.ambient with confirm := 0 }
  | .forceStreet => s
  | .forceDusk => s

/-- A valid reading taken (R153, R156): the history and average, the end of a fault, then the decision, with the
confirmation count at 0 when the reading ends a fault. -/
def takeReading (r : Nat) (s : State) : State :=
  let fault := decide (s.ambient.status = .fault)
  let h := pushReading r (if fault then [] else s.ambient.history)
  let average := h.sum / 4
  let s1 := s.setAmbient { s.ambient with inFlight := none, history := h, average := some average, failures := 0,
                                          status := .good, confirm := if fault then 0 else s.ambient.confirm }
  judgeAmbient average (if fault then raise .ambient s1 else s1)

/-- A failed read taken (R155). -/
def failReading (s : State) : State :=
  let a := { s.ambient with inFlight := none }
  match a.status with
  | .fault => s.setAmbient a
  | .good | .noReading =>
    if Config.sensorFaultAt ≤ a.failures + 1 then
      raise .ambient (s.setAmbient { a with failures := Config.sensorFaultAt, status := .fault, confirm := 0 })
    else s.setAmbient { a with failures := a.failures + 1 }

/-- At the frame start of frame 0 polling begins with its first read, and a forced mode sets the state (R151, R157). -/
def beginPolling (s : State) : State :=
  let s1 := s.setAmbient { s.ambient with polling := true, inFlight := some 0 }
  match s.prof.ambientMode with
  | .forceDusk => changeAmbient s1
  | .forceStreet => s1
  | .auto => s1

/-- AMBIENT_POLL (R151): a poll instant starts a read transaction of the light sensor. -/
def execAmbientPoll (s : State) : Host.Outcome State Fault Refusal :=
  .next (if s.ambient.polling ∧ s.ambient.inFlight = none then s.setAmbient { s.ambient with inFlight := some 0 } else s)

/-- SENSOR_READING (R153): a valid reading updates the history and average, ends any fault and applies the decision. -/
def execSensorReading (first second : BitVec 8) (s : State) : Host.Outcome State Fault Refusal :=
  .next (if s.ambient.inFlight.isSome then takeReading (sensorValue first second) s else s)

/-- SENSOR_READ_FAILURE (R155): the failure count rises, and at 8 the sensor is at fault and AMBIENT is raised. -/
def execSensorReadFailure (s : State) : Host.Outcome State Fault Refusal :=
  .next (if s.ambient.inFlight.isSome then failReading s else s)

end Sys2Proof.Machine
end

