-- ==== Sys2Proof/Machine/Arbitration.lean ====
section
/-! DEFINITION. The Memory Arbiter, the host window port, and the Report Writer's bursts (chapter 7, sections 7.5 and 7.6;
chapter 11, section 11.4), with the meanings of GRANT_DECISION, HOST_WINDOW_ACCESS and of the writes that are received
and that land. -/

namespace Sys2Proof.Machine

/-! ## Fetch engines (R122, R129) -/

/-- The first tile index after a pointer, counting upward and round, whose engine waits at the given level. -/
def pickEngine (pointer : Nat) (urgent : Bool) (s : State) : Option Nat :=
  ((List.range Config.tileCount).map (fun i => (pointer + 1 + i) % Config.tileCount)).find?
    (fun k => (s.tile k).engine.waiting urgent)

/-- The words of a burst, as show memory holds them (R124). -/
def burstWords (m : List Host.Cell) (start n : Nat) : List Word :=
  (List.range n).map (fun i => Memory.readWord m (start + i))

/-- The request an engine offers is granted: its words are read and in flight, reserved in the lane (R122). -/
def Engine.grant (m : List Host.Cell) (e : Engine) : Engine :=
  match e.offer with
  | none => e
  | some id =>
    let l := e.lane id
    let b : Burst := { lane := id, row := l.fetchRow, words := burstWords m l.burstStart l.burstLength, stale := false }
    { e.setLane id l.granted with flight := e.flight ++ [b] }

/-- A fetch engine is granted, and the pointer of its place moves to it (R129). -/
def grantEngine (k : Nat) (urgent : Bool) (s : State) : State :=
  (s.updTile k (fun t => { t with engine := t.engine.grant s.mem })).setArbiter
    (if urgent then { s.arbiter with urgentPtr := k } else { s.arbiter with otherPtr := k })

/-! ## The host window port (R130) -/

/-- An access split at the 128-byte boundaries of show memory. -/
def splitAccess : WindowAccess → List AccessPart
  | .read a n =>
    let room := 128 - a % 128
    if n ≤ room then [.read a n] else [.read a room, .read (a + room) (n - room)]
  | .write a d =>
    let room := 128 - a % 128
    if d.length ≤ room then [.write a d] else [.write a (d.take room), .write (a + room) (d.drop room)]

/-- The port takes an access, or it waits at the endpoint while the port holds 8 (R130, log entry 19). -/
def HostPort.take (a : WindowAccess) (p : HostPort) : HostPort :=
  if p.accesses.length < Config.portDepth ∧ p.backlog = [] then
    { p with accesses := p.accesses ++ [⟨splitAccess a, []⟩] }
  else { p with backlog := p.backlog ++ [a] }

/-- The oldest access has been carried: it leaves, a read returns its data, and the next waiting access is taken. -/
def HostPort.carried (got : List Byte) (rest : List PortAccess) (p : HostPort) : HostPort :=
  let data := if got = [] then p.readData else got
  match p.backlog with
  | [] => { accesses := rest, backlog := [], readData := data }
  | a :: waiting => { accesses := rest ++ [⟨splitAccess a, []⟩], backlog := waiting, readData := data }

/-- An ADOPT_PROFILE that waits for earlier BAR1 accesses has one fewer ahead of it (R168). -/
def countCarried (s : State) : State :=
  match s.window.adoption with
  | some a =>
    match a.phase with
    | .behindHost n => s.setWindow { s.window with adoption := some { a with phase := .behindHost (n - 1) } }
    | .presented => s
    | .granted _ => s
  | none => s

/-- One burst of the oldest access performed: the bytes it read, and show memory after it. -/
def AccessPart.perform (m : List Host.Cell) : AccessPart → List Byte × List Host.Cell
  | .read a n => (Memory.readBytes m a n, m)
  | .write a d => ([], Memory.writeBytes m a d)

/-- The host window port's request is granted (R130). -/
def grantHost (s : State) : State :=
  match s.port.accesses with
  | [] => s
  | x :: rest =>
    match x.parts with
    | [] => countCarried (s.setPort (s.port.carried x.got rest))
    | p :: more =>
      let r := p.perform s.mem
      let s' := s.setMem r.2
      if more = [] then countCarried (s'.setPort (s'.port.carried (x.got ++ r.1) rest))
      else s'.setPort { s'.port with accesses := ⟨more, x.got ++ r.1⟩ :: rest }

/-! ## The Report Writer (R131, R182 to R184) -/

/-- The record through whose pass the scan context still holds the old content of a fade. -/
def Scan.fadingFrom (c : Scan) : Option Nat :=
  match c.fade with
  | some f => f.oldCue.map (·.record)
  | none => none

/-- The records whose snapshots some tile's fade still holds as its old content, a shadow's too (R24, R93). -/
def State.fadingFrom (s : State) : List Nat := s.tiles.filterMap (·.scan.fadingFrom)

/-- The position of the write whose burst the Report Writer presents: the first not wholly granted; a refresh only when
every write before it has landed (R182), a fault record only when every fault record before it has (R184). While a fade
holds a snapshot through the records `fading`, their RELEASED is not presented: by the time it is written no tile reads a
plate through the cue any longer (R24, R93). The writes behind it wait, since writes land in the order received (R52;
DEDUCED, log entry 39). -/
def presented (fading : List Nat) : (position : Nat) → (faultAhead : Bool) → List QueueItem → Option Nat
  | _, _, [] => none
  | i, f, .outcome w granted :: rest =>
    if granted then presented fading (i + 1) f rest
    else if w.kind = .released ∧ w.record ∈ fading then none else some i
  | i, f, .fault _ granted :: rest =>
    if granted then presented fading (i + 1) true rest else if f then none else some i
  | i, f, .refresh _ n _ _ :: rest =>
    if refreshBursts ≤ n then presented fading (i + 1) f rest else if i = 0 then some i else none

/-- The position of the write whose burst waits at the Report Writer's place (R129, R131). -/
def State.reportRequest (s : State) : Option Nat := presented s.fadingFrom 0 false s.report.queue

/-- One burst of a write performed on show memory: the item after it and show memory after it (R50, R183, R184). -/
def QueueItem.perform (page : Nat) (superseded : Bool) (m : List Host.Cell) : QueueItem → QueueItem × List Host.Cell
  | .outcome w _ => (.outcome w true, w.perform m)
  | .fault f _ => (.fault f true, writeRuns m page (f.runs superseded))
  | .refresh g n t r => (.refresh g (n + 1) t r, Memory.writeBytes m (page + 128 * refreshBlock n) (g.burst n))

/-- The Report Writer's request is granted: for a fault record SUPERSEDED is the FAULT flag at that moment (R184). -/
def grantReport (i : Nat) (s : State) : State :=
  match s.report.queue[i]? with
  | none => s
  | some item =>
    let r := item.perform s.prof.statusPage (s.flag .fault) s.mem
    (s.setMem r.2).setReport { s.report with queue := s.report.queue.set i r.1 }

/-! ## The Chain Follower's place (R21, R132, R168) -/

/-- The plate-table read a commit attempt presents. -/
def State.plateRequest (s : State) : Option Nat :=
  match s.commit.attempt with
  | some a => a.toRead.head?
  | none => none

/-- The next plate-table entry of the attempt is read as one burst of four words (R21). -/
def grantPlate (index : Nat) (s : State) : State :=
  match s.commit.attempt with
  | none => s
  | some a =>
    let e := plateEntryOf (Memory.readBytes s.mem (s.prof.plateTable + 32 * index) 32)
    s.setCommit { s.commit with
      attempt := some { a with toRead := a.toRead.tail, plates := a.plates ++ [(index, e)] } }

/-- The Chain Follower has a request waiting. -/
def State.followerWaits (s : State) : Bool :=
  match s.follower.fetch with
  | some (.record _ _ none) => true
  | some (.link _ none) => true
  | some (.record _ _ (some _)) => false
  | some (.link _ (some _)) => false
  | none => false

/-- The Chain Follower's request is granted: a record fetch's words, or a link word read whole (R36, R42, R43). -/
def grantFollower (s : State) : State :=
  match s.follower.fetch with
  | some (.record a arrived none) =>
    let q := recordRequest a arrived
    s.setFollower { s.follower with
      fetch := some (.record a arrived (some (Memory.readBytes s.mem (8 * q.1) (8 * q.2)))) }
  | some (.link a none) =>
    s.setFollower { s.follower with fetch := some (.link a (some (Memory.readWord s.mem (a / 8 + 4)))) }
  | some (.record _ _ (some _)) => s
  | some (.link _ (some _)) => s
  | none => s

/-- The read of a profile record waits. -/
def State.profileWaits (s : State) : Bool :=
  match s.window.adoption with
  | some a => decide (a.phase = .presented)
  | none => false

/-- The read of the profile record is granted: its 104 bytes, or those that remain in show memory (R168). A record that
runs past 0x2000_0000 is to be refused; the manual does not say whether before its read or after it. The model reads the
bytes that remain, BUSY meanwhile, and refuses at PROFILE_RECORD_READ_DONE (DESIGN CHOICE, log entry 47). -/
def grantProfile (s : State) : State :=
  match s.window.adoption with
  | some a =>
    s.setWindow { s.window with adoption := some { a with
      phase := .granted (Memory.readBytes s.mem a.arg.toNat (min 104 (Config.showBytes - a.arg.toNat))) } }
  | none => s

/-- Place 5: a non-urgent engine. -/
def grantOther (s : State) : State :=
  match pickEngine s.arbiter.otherPtr false s with
  | some k => grantEngine k false s
  | none => s

/-- Place 4: a plate-table read, otherwise the Chain Follower's request; a profile record is read at the same place. -/
def grantPlace4 (s : State) : State :=
  match s.plateRequest with
  | some index => grantPlate index s
  | none => if s.followerWaits then grantFollower s else if s.profileWaits then grantProfile s else grantOther s

/-- One grant decision: the first place at which a request waits is granted and its burst performed (R129). -/
def grantDecision (s : State) : State :=
  match pickEngine s.arbiter.urgentPtr true s with
  | some k => grantEngine k true s
  | none =>
    if s.port.accesses ≠ [] then grantHost s
    else
      match s.reportRequest with
      | some i => grantReport i s
      | none => grantPlace4 s

/-! ## Writes received and landed -/

/-- The first waiting fault record of a hold is received, once no entry is departing (R52, R73). -/
def receiveHoldFault (s : State) : State :=
  match s.report.holdFaults with
  | [] => s
  | f :: rest =>
    if 0 < s.placesForHold then
      enqueue (.fault f false) (s.setReport { s.report with holdFaults := rest })
    else s

/-- The head of the hand-off list is received, once no entry is departing and no hold's fault record waits (R79). -/
def receiveHandoff (s : State) : State :=
  match s.commit.handoff with
  | [] => s
  | w :: rest =>
    if 0 < s.placesForHandoff then
      enqueue (.outcome w false) (s.setCommit { s.commit with handoff := rest })
    else s

/-- Every waiting write that a free place can receive is received: departing entries' first, then fault records of holds,
then the hand-off list (R73, R79). -/
def receiveWaiting (s : State) : State :=
  let s1 := drainDeparting s.scheduler.queue.length s
  let s2 := s1.report.holdFaults.foldl (fun u _ => receiveHoldFault u) s1
  s2.commit.handoff.foldl (fun u _ => receiveHandoff u) s2

/-- The first write leaves the queue. -/
def popReport (s : State) : State := s.setReport { s.report with queue := s.report.queue.tail }

/-- The handback counter rises, then FINAL is raised, for a final state (R52). -/
def countFinal (kind : OutcomeKind) (s : State) : State :=
  if kind.isFinal then raise .final (s.setReport { s.report with handback := s.report.handback + 1 }) else s

/-- OUTCOME_WRITE_LANDED without its outcome: writes land in the order received (R52). -/
def outcomeLanded (s : State) : State :=
  match s.report.queue.head? with
  | some (.outcome w true) => followerOnLanded (countFinal w.kind (popReport s))
  | some (.outcome _ false) => s
  | some (.fault _ _) => s
  | some (.refresh _ _ _ _) => s
  | none => s

/-- FAULT_RECORD_LANDED without its outcome (R52, R184). -/
def faultLanded (s : State) : State :=
  match s.report.queue.head? with
  | some (.fault f true) =>
    let s' := raise .fault (popReport s)
    if f.hold then raise .hold s' else s'
  | some (.fault _ false) => s
  | some (.outcome _ _) => s
  | some (.refresh _ _ _ _) => s
  | none => s

/-- REFRESH_LANDED without its outcome: all its bursts have been performed (R182). -/
def refreshLanded (s : State) : State :=
  match s.report.queue.head? with
  | some (.refresh _ n tag result) =>
    if refreshBursts ≤ n then
      let s1 := popReport s
      let s2 := if tag then raise .mark s1 else s1
      if result then raise .store s2 else s2
    else s
  | some (.outcome _ _) => s
  | some (.fault _ _) => s
  | none => s

/-- GRANT_DECISION (R129): one waiting request is granted by the fixed order of places and the pointers, and its burst is
performed; with no request waiting nothing is granted. -/
def execGrantDecision (s : State) : Host.Outcome State Fault Refusal := .next (grantDecision s)

/-- HOST_WINDOW_ACCESS (R130): a BAR1 access is taken into the port, split at 128-byte boundaries. An access outside the
window faults; one of no bytes or of more than 128 is refused. -/
def execHostWindowAccess (a : WindowAccess) (s : State) : Host.Outcome State Fault Refusal :=
  let n := match a with | .read _ n => n | .write _ d => d.length
  let start := match a with | .read x _ => x | .write x _ => x
  if n = 0 ∨ 128 < n then .refused .malformedAccess
  else if Config.showBytes < start + n then .fault .outsideShowMemory
  else .next (s.setPort (s.port.take a))

/-- HOLD_FAULT_RECEIVED (R52): a waiting fault record of a hold is received when a place comes free. -/
def execHoldFaultReceived (s : State) : Host.Outcome State Fault Refusal := .next (receiveHoldFault s)

/-- HANDOFF_WRITE_RECEIVED (R79): the head of the hand-off list is received when a place comes free. -/
def execHandoffWriteReceived (s : State) : Host.Outcome State Fault Refusal := .next (receiveHandoff s)

/-- OUTCOME_WRITE_LANDED (R52): an outcome write lands; a final state is counted and FINAL raised. -/
def execOutcomeWriteLanded (s : State) : Host.Outcome State Fault Refusal := .next (outcomeLanded s)

/-- FAULT_RECORD_LANDED (R184): a fault record lands, and FAULT, with HOLD for a hold, is raised. -/
def execFaultRecordLanded (s : State) : Host.Outcome State Fault Refusal := .next (faultLanded s)

/-- REFRESH_LANDED (R182): a refresh lands, and MARK or STORE is raised for a new tag or store result it carried. -/
def execRefreshLanded (s : State) : Host.Outcome State Fault Refusal := .next (refreshLanded s)

end Sys2Proof.Machine
end

