-- ==== Sys2Proof/Machine/Startup.lean ====
section
/-! DEFINITION. The status page refresh, frame 0, the adoption of a profile, loading and device reset (chapter 10,
sections 10.2 to 10.4; chapter 11, section 11.4), with the meanings of DEVICE_RESET, LOADING_END and the steps of
ADOPT_PROFILE's read. -/

namespace Sys2Proof.Machine

/-! ## The refresh (R182) -/

/-- The dwell end a refresh reports for a tile: 0 with no current cue, otherwise its showing-table entry's (R95, R188). -/
def reportedDwellEnd (s : State) (cue : Option PassId) : Option Nat :=
  match cue with
  | none => some 0
  | some id =>
    match s.commit.showing.find? (fun e => e.id == id) with
    | some e => e.dwellEnd
    | none => some 0

/-- What a refresh reports of tile k (R148, R182). -/
def tileReport (s : State) (t : Tile) : TileReport :=
  { link := t.link.state, set := t.scan.set, descriptor := t.link.descriptor, missCount := t.link.missCount
    underruns := t.engine.underruns, cue := t.scan.cue.map (·.record), dwellEnd := reportedDwellEnd s t.scan.cue }

/-- The values of the part a refresh holds (R182). -/
def pageSnapshot (s : State) : PageSnapshot :=
  { frame := s.now, wall := s.window.wall, follower := s.follower.state, follow := s.follower.follow
    clock := s.ftg.clock, average := s.ambient.average.getD 0, level := s.ambient.level, sensor := s.ambient.status
    handback := s.report.handback, tag := s.report.tag, result := s.store.result, skipped := s.report.skipped
    tiles := s.tiles.map (tileReport s) }

/-- A refresh takes a free place with its snapshot, or is skipped and counted (R182). -/
def takeRefresh (s : State) : State :=
  if 0 < s.openPlaces then
    (enqueue (.refresh (pageSnapshot s) 0 s.report.tagNew s.report.resultNew) s).setReport
      { (enqueue (.refresh (pageSnapshot s) 0 s.report.tagNew s.report.resultNew) s).report with
        tagNew := false, resultNew := false }
  else s.setReport { s.report with skipped := s.report.skipped + 1 }

/-- Every fetch engine is prepared for the frame now starting (R118, R119). -/
def prepareEngines (s : State) : State :=
  s.setTiles (s.tiles.map (fun t => { t with engine := t.engine.prepare t.scan t.link.startState }))

/-! ## Frame 0 and adoption (R1, R165) -/

/-- Tile k's controller sends IDENTIFY in the header of frame 0 and enters TRAINING (R138). -/
def beginLink (k : Nat) (s : State) : State :=
  s.updTile k (fun t =>
    { t with link := { (t.link.toTraining.sendHeader 0) with echoes := [], stepped := false } })

/-- The Frame Timing Generator begins running: the frame start of frame 0 is taken by every block (R1, R12, R138, R151,
R157, R165). The manual leaves the order of the blocks open: links, then the Ambient Unit, then the refresh, which
therefore reads the ambient state after a forced change (DESIGN CHOICE, log entry 38). -/
def beginRunning (s : State) : State :=
  let s1 := s.setFtg { s.ftg with
    running := true, frame := 0, begun := false, trigger := initialFilter s.pins.trigger, pulse := initialFilter s.pins.pulse }
  let s2 := forTiles s1.prof.tiles beginLink s1
  prepareEngines (takeRefresh (beginPolling s2))

/-- Every tile takes the trim bytes of a valid image, tiles T..15 included (R114, R165). -/
def loadTrims (image : List (Option Byte)) (s : State) : State :=
  s.setTiles (s.tiles.mapIdx (fun k t =>
    { t with scan := { t.scan with street := (imageByte image (streetPosition k)).toNat,
                                   dusk := (imageByte image (duskPosition k)).toNat } }))

/-- A profile is adopted: copied and locked, the wall enters STANDBY, and frame 0 begins (R165). -/
def adopt (p : Profile) (s : State) : State :=
  beginRunning ((s.setProfile (some p)).setWindow { s.window with wall := .standby })

/-! ## Loading (R164) -/

/-- The image copy as read: unknown where the read was not acknowledged. -/
def readImage (eeprom : List Byte) (unread : List Nat) : List (Option Byte) :=
  eeprom.mapIdx (fun i b => if unread.contains i then none else some b)

/-- LOADING_END without its outcome. -/
def loadingEnd (unread : List Nat) (s : State) : State :=
  if s.window.wall = .loading ∧ s.store.state = .loading then
    let image := readImage s.store.eeprom unread
    let content := imageContent image
    let s1 := s.setStore { s.store with state := .idle, image := image, valid := content.isSome }
    match content with
    | some p => adopt p (loadTrims image s1)
    | none => s1.setWindow { s1.window with wall := .awaitProfile }
  else s

/-! ## ADOPT_PROFILE's read (R168, R169) -/

/-- PROFILE_RECORD_READ_ISSUE without its outcome. -/
def profileReadIssue (s : State) : State :=
  match s.window.adoption with
  | some a =>
    if a.phase = .behindHost 0 then s.setWindow { s.window with adoption := some { a with phase := .presented } } else s
  | none => s

/-- A valid profile record is adopted, and its result follows: ACCEPTED, or BUSY until the profile write ends. -/
def adoptRecord (p : Profile) (persist : Bool) (s : State) : State :=
  let s1 := adopt p s
  if persist then placeJob .profile (contentWrites s1.store.image (profileContent s1.store.image p s1.tiles)) s1
  else s1.setWindow (s1.window.finish .adoptProfile .accepted)

/-- PROFILE_RECORD_READ_DONE without its outcome. -/
def profileReadDone (s : State) : State :=
  match s.window.adoption with
  | some a =>
    match a.phase with
    | .granted r =>
      let s1 := s.setWindow { s.window with adoption := none }
      match profileOfRecord r with
      | some p => adoptRecord p a.persist s1
      | none => s1.setWindow (s1.window.finish .adoptProfile .refusedInvalid)
    | .behindHost _ => s
    | .presented => s
  | none => s

/-! ## Device reset (R16, R48, R77, R99, R115, R133, R134, R149, R160, R174, R185) -/

/-- Every block at its device-reset values. Show memory is not written (R32), whatever the cause, power-on included
(DESIGN CHOICE, log entry 40); a burst granted but not yet landed stands whole in it, where R53 and R134 allow whole or
not at all (DESIGN CHOICE, log entry 42); BAR1 accesses that wait at the endpoint for a full port are dropped with those
the port held, of which alone R134 speaks (DESIGN CHOICE, log entry 44); the EEPROM keeps its content but for the
byte write the reset cuts (R170); the inputs, message signalling and what has left the part are not of the part's blocks
and stay (log entries 4, 5, 18). -/
def deviceReset (cut : CutByte) (s : State) : State :=
  { State.reset with
    mem := s.mem
    store := .loading (s.store.cut cut)
    port := { State.reset.port with readData := s.port.readData }
    window := { State.reset.window with
      readData := s.window.readData, signalling := s.window.signalling, messages := s.window.messages }
    pins := s.pins
    freeIndex := s.freeIndex
    pending := s.pending }

/-- DEVICE_RESET (R164): every block takes its reset values, the wall and the Settings Store Controller are in LOADING,
and the read of the EEPROM begins. -/
def execDeviceReset (cut : CutByte) (s : State) : Host.Outcome State Fault Refusal := .next (deviceReset cut s)

/-- LOADING_END (R164): the image is judged, and the wall adopts its profile and trims or enters AWAIT_PROFILE. -/
def execLoadingEnd (unread : List Nat) (s : State) : Host.Outcome State Fault Refusal := .next (loadingEnd unread s)

/-- PROFILE_RECORD_READ_ISSUE (R168): once the host window port has carried every earlier BAR1 access, the read of the
profile record is presented. -/
def execProfileRecordReadIssue (s : State) : Host.Outcome State Fault Refusal := .next (profileReadIssue s)

/-- PROFILE_RECORD_READ_DONE (R168): the profile record is refused or adopted. -/
def execProfileRecordReadDone (s : State) : Host.Outcome State Fault Refusal := .next (profileReadDone s)

end Sys2Proof.Machine
end

