-- ==== Sys2Proof/Machine/Inputs.lean ====
section
/-! DEFINITION. The event inputs and their filters (chapter 1, section 1.5), with the meanings of EVENT_INPUT_ACTIVE,
EVENT_INPUT_INACTIVE and FILTER_WIDTH_REACHED. -/

namespace Sys2Proof.Machine

/-- A pulse sets alignment pending when the profile's pulse-align flag is on (R14, R15). -/
def pendAlignment (s : State) : State :=
  if s.prof.pulseAlign then s.setFtg { s.ftg with alignPending := true } else s

/-- An accepted event of the current frame is handed on: a trigger to the Cue Scheduler, a pulse to the Cue Scheduler and
to pulse alignment (R13). -/
def acceptEvent (i : EventInput) (s : State) : State :=
  match i with
  | .trigger => triggerEvent s
  | .pulse => pendAlignment (pulseEvent s)

/-- A filter enters a state. -/
def setFilter (i : EventInput) (x : Filter) (s : State) : State := s.setFtg (s.ftg.setFilter i x)

/-- The input becomes active with its filter in IDLE: qualifying from 0, or accepted at once when the width is 0 (R10,
R11). -/
def qualify (i : EventInput) (s : State) : State :=
  if s.prof.filterWidth i = 0 then acceptEvent i (setFilter i .waitInactive s) else setFilter i (.qualifying 0) s

/-- EVENT_INPUT_ACTIVE without its outcome: only a change of the input's level acts, and only while the Frame Timing
Generator runs (R10 to R12). -/
def inputActive (i : EventInput) (s : State) : State :=
  if s.pins.level i then s
  else
    let s' := s.setPins (s.pins.setLevel i true)
    if s.ftg.running ∧ s.ftg.filter i = .idle then qualify i s' else s'

/-- EVENT_INPUT_INACTIVE without its outcome: the filter returns to IDLE (R10, R11). -/
def inputInactive (i : EventInput) (s : State) : State :=
  let s' := s.setPins (s.pins.setLevel i false)
  if s.ftg.running then setFilter i .idle s' else s'

/-- FILTER_WIDTH_REACHED without its outcome: a qualifying filter accepts one event (R10). -/
def widthReached (i : EventInput) (s : State) : State :=
  match s.ftg.filter i with
  | .qualifying _ => if s.ftg.running ∧ s.pins.level i then acceptEvent i (setFilter i .waitInactive s) else s
  | .idle => s
  | .waitInactive => s

/-- EVENT_INPUT_ACTIVE (R10): TRIGGER or PULSE becomes active. -/
def execEventInputActive (i : EventInput) (s : State) : Host.Outcome State Fault Refusal := .next (inputActive i s)

/-- EVENT_INPUT_INACTIVE (R10): TRIGGER or PULSE becomes inactive. -/
def execEventInputInactive (i : EventInput) (s : State) : Host.Outcome State Fault Refusal := .next (inputInactive i s)

/-- FILTER_WIDTH_REACHED (R10): the elapsed time of a qualifying filter reaches its width. -/
def execFilterWidthReached (i : EventInput) (s : State) : Host.Outcome State Fault Refusal := .next (widthReached i s)

end Sys2Proof.Machine
end

