-- ==== Sys2Proof/Machine/Commands.lean ====
section
/-! DEFINITION. The register window: the judging of commands and their records, the seven commands, and the accesses to
the other registers (chapter 11), with their meanings. -/

namespace Sys2Proof.Machine

/-! ## Judging and recording (R176, R177) -/

/-- A command is busy while the main record holds BUSY (R176). -/
def Window.busy (w : Window) : Bool :=
  match w.main with
  | some r => decide (r.result = .busy)
  | none => false

/-- STOP is the busy command. -/
def Window.stopBusy (w : Window) : Bool := decide (w.main = some ⟨Command.stop.code, .busy⟩)

/-- The wall state, and for RESUME the follower state, in which a command is taken (R177, table). -/
def commandAllowed (c : Command) (s : State) : Bool :=
  match c with
  | .adoptProfile => decide (s.window.wall = .awaitProfile)
  | .start => decide (s.window.wall = .standby)
  | .redirect => decide (s.window.wall = .showing)
  | .resume => decide (s.window.wall = .showing ∧ s.follower.state = .hold)
  | .stop => decide (s.window.wall = .showing)
  | .wallReset => decide (s.window.wall = .standby ∨ s.window.wall = .showing ∨ s.window.wall = .stopping)
  | .invalidateStore => decide (s.window.wall = .standby)

/-- The refusal a command meets, none when it is taken: the first deciding step of R177. -/
def judge (c : Command) (s : State) : Option Result :=
  if s.window.wall = .loading then some .refusedState
  else if c = .adoptProfile ∧ s.window.wall ≠ .awaitProfile then some .refusedLocked
  else if !commandAllowed c s then some .refusedState
  else if c ≠ .wallReset ∧ s.window.busy then some .refusedBusy
  else if c = .invalidateStore ∧ s.store.job.isSome then some .refusedBusy
  else none

/-- A command written is recorded: in the side record while another command is busy, otherwise in the main record with
the side record cleared; a WALL_RESET taken while STOP is busy takes the main record (R176). -/
def Window.record (code : Byte) (result : Result) (w : Window) : Window :=
  if w.busy && !(decide (code = Command.wallReset.code ∧ result = .accepted) && w.stopBusy) then
    { w with side := some ⟨code, result⟩ }
  else { w with main := some ⟨code, result⟩, side := none }

def recordCommand (c : Command) (result : Result) (s : State) : State :=
  s.setWindow (s.window.record c.code result)

/-! ## The commands -/

/-- ADOPT_PROFILE taken: BUSY, and REFUSED_INVALID for a bad address; a good one waits for the BAR1 accesses received
before it (R168). -/
def takeAdopt (persist : Bool) (s : State) : State :=
  let s1 := recordCommand .adoptProfile .busy s
  if badAddress s.window.arg.toNat then s1.setWindow (s1.window.finish .adoptProfile .refusedInvalid)
  else
    let work : Adoption := ⟨persist, s.window.arg, .behindHost (s.port.accesses.length + s.port.backlog.length)⟩
    s1.setWindow { s1.window with adoption := some work }

/-- START taken: SHOWING, the anchor, and following from ARG (R34, R57, R178). -/
def takeStart (s : State) : State :=
  let s1 := recordCommand .start .accepted s
  followFrom s.window.arg.toNat (setAnchor (s1.setWindow { s1.window with wall := .showing }))

/-- REDIRECT taken: the fetch and any undecided attempt abandoned, every uncommitted entry withdrawn, a new anchor, and
following from ARG (R46, R75, R80). The follower has left its old state before the entries leave. -/
def takeRedirect (s : State) : State :=
  let s1 := recordCommand .redirect .accepted s
  let s2 := endAttempt (endFollowing s1)
  followFrom s.window.arg.toNat (setAnchor (withdrawAll s2))

/-- RESUME taken (R45). -/
def takeResume (s : State) : State := resumeFollowing (recordCommand .resume .accepted s)

/-- The stop frame: the greater of now + H and one more than the greatest V of the showing table (R96). -/
def State.stopFrameOf (s : State) : Nat :=
  s.commit.showing.foldl (fun m e => max m (e.visible + 1)) (s.now + s.horizon)

/-- STOP taken: entries withdrawn, the follower IDLE, stop switches placed, STOPPING (R47, R76, R96). -/
def takeStopCommand (s : State) : State :=
  let s1 := recordCommand .stop .busy s
  let s2 := withdrawAll (endAttempt (endFollowing s1))
  let vs := s2.stopFrameOf
  let s3 := forTiles s2.prof.tiles (fun k s => s.updTile k (fun t => { t with stopAt := some (s.switchFrame k vs) })) s2
  let s4 := s3.setCommit { s3.commit with stopFrame := some vs }
  s4.setWindow { s4.window with wall := .stopping }

/-- WALL_RESET taken: the showing of the wall is cleared without outcome writes, and the Ambient Unit's set is requested
(R17, R47, R48, R77, R98, R158, R179). -/
def takeWallReset (s : State) : State :=
  let s1 := recordCommand .wallReset .accepted s
  let s2 := (endFollowing s1).setFollower { (endFollowing s1).follower with position := .record }
  let s3 := s2.setScheduler { s2.scheduler with queue := [], lastScene := none, lastFrame := none }
  let s4 := s3.setCommit { s3.commit with showing := [], due := [], attempt := none, stopFrame := none }
  let s5 := s4.setTiles (s4.tiles.map (fun t => { t with switches := [], stopAt := none }))
  let s6 := s5.setFtg { s5.ftg with clockSets := [] }
  let s7 := s6.setWindow { s6.window with wall := .standby, resetTaken := true }
  requestLevel s.ambient.level s7

/-- INVALIDATE_STORE taken: one byte write of the marker to 0 is placed in the job slot (R173). -/
def takeInvalidate (s : State) : State :=
  placeJob .invalidate [(0, 0)] (recordCommand .invalidateStore .busy s)

/-- A command is judged, recorded, and worked when taken (R177). -/
def command (c : Command) (take : State → State) (s : State) : State :=
  match judge c s with
  | some result => recordCommand c result s
  | none => take s

/-- ADOPT_PROFILE (R168). -/
def execAdoptProfile (persist : Bool) (s : State) : Host.Outcome State Fault Refusal :=
  .next (command .adoptProfile (takeAdopt persist) s)

/-- START (R34). -/
def execStart (s : State) : Host.Outcome State Fault Refusal := .next (command .start takeStart s)

/-- REDIRECT (R46). -/
def execRedirect (s : State) : Host.Outcome State Fault Refusal := .next (command .redirect takeRedirect s)

/-- RESUME (R45), with DRY if the follower returns to an empty queue's tail (R44). -/
def execResume (s : State) : Host.Outcome State Fault Refusal := .next (dryEdge s (command .resume takeResume s))

/-- STOP (R96). -/
def execStop (s : State) : Host.Outcome State Fault Refusal := .next (command .stop takeStopCommand s)

/-- WALL_RESET (R179). -/
def execWallReset (s : State) : Host.Outcome State Fault Refusal := .next (command .wallReset takeWallReset s)

/-- INVALIDATE_STORE (R173). -/
def execInvalidateStore (s : State) : Host.Outcome State Fault Refusal := .next (command .invalidateStore takeInvalidate s)

/-- CMD_INVALID_CODE (R189): refused with REFUSED_INVALID and recorded, in every wall state. -/
def execCmdInvalidCode (code : BitVec 8) (s : State) : Host.Outcome State Fault Refusal :=
  if 1 ≤ code.toNat ∧ code.toNat ≤ 7 then .refused .codeNamesCommand
  else .next (s.setWindow (s.window.record code .refusedInvalid))

/-! ## The other registers -/

/-- ATTN_WRITE (R180): each flag whose bit in the value is 1 is cleared; bits 9..31 are ignored (R189). -/
def execAttnWrite (value : BitVec 32) (s : State) : Host.Outcome State Fault Refusal :=
  .next (s.setWindow (s.window.signal { s.window with attn := s.window.attn &&& ~~~(value.extractLsb' 0 9) }))

/-- ATTN_MASK_WRITE (R180, R181): the mask is replaced, and a message sent if the enabled set becomes non-empty. -/
def execAttnMaskWrite (value : BitVec 32) (s : State) : Host.Outcome State Fault Refusal :=
  .next (s.setWindow (s.window.signal { s.window with mask := value.extractLsb' 0 9 }))

/-- FRAME_LO_READ (R8): the low 32 bits of the frame number are returned and bits 32..47 latched. -/
def execFrameLoRead (s : State) : Host.Outcome State Fault Refusal :=
  .next ((s.setWindow { s.window with readData := BitVec.ofNat 32 s.now }).setFtg
    { s.ftg with latch := BitVec.ofNat 16 (s.now / 2 ^ 32) })

/-- ARG with the half or halves of a write replaced; the other targets change nothing (R8, R9, R175). -/
def writeArg (target : RegisterTarget) (value arg : BitVec 64) : BitVec 64 :=
  match target with
  | .argLow => arg.extractLsb' 32 32 ++ value.extractLsb' 0 32
  | .argHigh => value.extractLsb' 0 32 ++ arg.extractLsb' 0 32
  | .argWhole => value
  | .frameLo => arg
  | .frameHi => arg
  | .empty _ => arg

/-- REGISTER_WRITE (R175): a write to ARG stores the half or halves it covers; any other is ignored. -/
def execRegisterWrite (target : RegisterTarget) (value : BitVec 64) (s : State) : Host.Outcome State Fault Refusal :=
  .next (s.setWindow { s.window with arg := writeArg target value s.window.arg })

/-- MESSAGE_SIGNALLING_CHANGE (R181): later transitions send messages or not; a past one is not remembered. -/
def execMessageSignallingChange (enabled : Bool) (s : State) : Host.Outcome State Fault Refusal :=
  .next (s.setWindow { s.window with signalling := enabled })

end Sys2Proof.Machine
end

