-- ==== Sys2Proof/Machine/Frame.lean ====
section
/-! DEFINITION. The frame start: what every per-frame block does at it, in one order (R2; log entry 8), with the meanings
of FRAME_START and WAIT_LIMIT_SKIP. -/

namespace Sys2Proof.Machine

/-- The Tile Link Controllers judge the frame just ended, act, and send their headers (R135 to R143). -/
def linksAtFrameStart (s : State) : State := forTiles Config.tileCount stepLinkUnlessDone s

/-- Frame number and show clock advance (R2, R5, R7, R14). -/
def advanceFtg (s : State) : State := s.setFtg (s.ftg.advance s.prof.rate)

/-- A frame start begins: links, frame number and show clock, and the deferral of an attempt left undecided (R80), whose
places go to the writes that wait. -/
def beginFrame (s : State) : State := receiveWaiting (endAttempt (advanceFtg (linksAtFrameStart s)))

/-- The present frame's start has been taken at a WAIT_LIMIT_SKIP; the FRAME_START of that frame is still to come. -/
def markBegun (s : State) : State := s.setFtg { s.ftg with begun := true }

/-- Every entry now in the queue may be attempted in this frame start's run (R78). -/
def markAttemptable (s : State) : State := mapQueue (fun e => { e with attemptable := true }) s

/-- The Cue Scheduler's actions: skips by wait limit, then target fixings (R65, R69, R78). -/
def scheduleAtFrameStart (s : State) : State :=
  fixTargets (skipWaits (s.expiredWaits s.now) s)

/-- The scan contexts are brought up to date, and a WALL_RESET is then no longer recent (R101). -/
def scanAtFrameStart (s : State) : State :=
  let s' := forTiles Config.tileCount scanTile s
  s'.setWindow { s'.window with resetTaken := false }

/-- Cues that reach their visible frame are completed, released scenes leave, a STOP may complete (R92 to R94, R97). -/
def completeAtFrameStart (s : State) : State :=
  completeStop (releaseScenes (s.reaching.foldl completeReaching s))

/-- A frame start up to its refresh: its beginning, the Cue Scheduler, the scan contexts, completions and releases, a
waiting level request, and the engines. -/
def untilRefresh (s : State) : State :=
  prepareEngines
    (retryLevelRequest (completeAtFrameStart (scanAtFrameStart (scheduleAtFrameStart (beginFrame s)))))

/-- One whole frame start. The order of the blocks is the model's where the manual leaves it open (log entry 8): links
with their headers; frame number and clock; the attempt left undecided is deferred (R80) and waiting writes are received;
the Cue Scheduler; the scan contexts; completions and releases; a waiting level request; the engines; the refresh; the run
of attempts, for the entries that stand in the queue then (R57, R78); the poll of the chain's end. -/
def wholeFrameStart (s : State) : State :=
  let s' := takeRefresh (untilRefresh s)
  pollLink (attemptRun (s'.scheduler.queue.length + 1) (markAttemptable s'))

/-- FRAME_START without its outcome and DRY: the whole frame start, unless a WAIT_LIMIT_SKIP has taken it already (log
entry 10). -/
def frameStart (s : State) : State :=
  if s.ftg.running then
    if s.ftg.begun then s.setFtg { s.ftg with begun := false } else wholeFrameStart s
  else s

/-- FRAME_START (R2): the frame number and show clock advance and every per-frame block takes its frame-start actions;
none while the Frame Timing Generator is stopped (R3). -/
def execFrameStart (s : State) : Host.Outcome State Fault Refusal := .next (dryEdge s (frameStart s))

/-- WAIT_LIMIT_SKIP without its outcome and DRY: when the limit of the wait of `record` is met at the coming frame start,
that frame start is taken, whole. It tests every wait once and skips those whose limit is met, this one among them, in
chain order (R69, R73). -/
def waitLimitSkip (record : Nat) (s : State) : State :=
  if s.ftg.running ∧ s.ftg.begun = false ∧ record ∈ (beginFrame s).expiredWaits (s.now + 1) then
    markBegun (wholeFrameStart s)
  else s

/-- WAIT_LIMIT_SKIP: an event wait reaches its limit at a frame start, and is skipped there; the FRAME_START of the same
frame, which follows, finds its frame start taken (R69, log entry 10). -/
def execWaitLimitSkip (record : Nat) (s : State) : Host.Outcome State Fault Refusal :=
  .next (dryEdge s (waitLimitSkip record s))

end Sys2Proof.Machine
end

