-- ==== Sys2Proof/Machine/Dispatch.lean ====
section
/-! DEFINITION. One arm per command: each calls the meaning of its command. -/

namespace Sys2Proof.Machine

def exec (i : Instr) (s : State) : Host.Outcome State Fault Refusal :=
  match i with
  | .deviceReset cut => Sys2Proof.Machine.execDeviceReset cut s
  | .loadingEnd unread => Sys2Proof.Machine.execLoadingEnd unread s
  | .adoptProfile persist => Sys2Proof.Machine.execAdoptProfile persist s
  | .profileRecordReadIssue => Sys2Proof.Machine.execProfileRecordReadIssue s
  | .profileRecordReadDone => Sys2Proof.Machine.execProfileRecordReadDone s
  | .start => Sys2Proof.Machine.execStart s
  | .redirect => Sys2Proof.Machine.execRedirect s
  | .resume => Sys2Proof.Machine.execResume s
  | .stop => Sys2Proof.Machine.execStop s
  | .wallReset => Sys2Proof.Machine.execWallReset s
  | .invalidateStore => Sys2Proof.Machine.execInvalidateStore s
  | .cmdInvalidCode code => Sys2Proof.Machine.execCmdInvalidCode code s
  | .attnWrite value => Sys2Proof.Machine.execAttnWrite value s
  | .attnMaskWrite value => Sys2Proof.Machine.execAttnMaskWrite value s
  | .frameLoRead => Sys2Proof.Machine.execFrameLoRead s
  | .registerWrite target value => Sys2Proof.Machine.execRegisterWrite target value s
  | .hostWindowAccess access => Sys2Proof.Machine.execHostWindowAccess access s
  | .grantDecision => Sys2Proof.Machine.execGrantDecision s
  | .frameStart => Sys2Proof.Machine.execFrameStart s
  | .waitLimitSkip record => Sys2Proof.Machine.execWaitLimitSkip record s
  | .commitDecision => Sys2Proof.Machine.execCommitDecision s
  | .linkReadReturn => Sys2Proof.Machine.execLinkReadReturn s
  | .graceExpired k => Sys2Proof.Machine.execGraceExpired k s
  | .joinComplete k => Sys2Proof.Machine.execJoinComplete k s
  | .lostTimeout k => Sys2Proof.Machine.execLostTimeout k s
  | .absentIdentify k => Sys2Proof.Machine.execAbsentIdentify k s
  | .trainingTimeout k => Sys2Proof.Machine.execTrainingTimeout k s
  | .echo k tag => Sys2Proof.Machine.execEcho k tag s
  | .descriptor k d => Sys2Proof.Machine.execDescriptor k d s
  | .linkTakesPixel k => Sys2Proof.Machine.execLinkTakesPixel k s
  | .burstArrival k words => Sys2Proof.Machine.execBurstArrival k words s
  | .fetchBegin => Sys2Proof.Machine.execFetchBegin s
  | .recordWordsArrived => Sys2Proof.Machine.execRecordWordsArrived s
  | .departingWriteReceived => Sys2Proof.Machine.execDepartingWriteReceived s
  | .holdFaultReceived => Sys2Proof.Machine.execHoldFaultReceived s
  | .handoffWriteReceived => Sys2Proof.Machine.execHandoffWriteReceived s
  | .outcomeWriteLanded => Sys2Proof.Machine.execOutcomeWriteLanded s
  | .faultRecordLanded => Sys2Proof.Machine.execFaultRecordLanded s
  | .refreshLanded => Sys2Proof.Machine.execRefreshLanded s
  | .eventInputActive event => Sys2Proof.Machine.execEventInputActive event s
  | .eventInputInactive event => Sys2Proof.Machine.execEventInputInactive event s
  | .filterWidthReached event => Sys2Proof.Machine.execFilterWidthReached event s
  | .ambientPoll => Sys2Proof.Machine.execAmbientPoll s
  | .sensorReading first second => Sys2Proof.Machine.execSensorReading first second s
  | .sensorReadFailure => Sys2Proof.Machine.execSensorReadFailure s
  | .byteWriteDone => Sys2Proof.Machine.execByteWriteDone s
  | .byteWriteFailed => Sys2Proof.Machine.execByteWriteFailed s
  | .messageSignallingChange enabled => Sys2Proof.Machine.execMessageSignallingChange enabled s

end Sys2Proof.Machine
end

