-- ==== Sys2Proof/Safety.lean ====
section
/-! DEFINITION. The terms in which claims speak of a safe part: which parts of the state a step leaves alone, and the
invariants that hold at reset and that every step keeps. -/

namespace Sys2Proof.Machine

/-! ## What a step leaves alone -/

/-- The sixteen parts of the state. -/
inductive Part where
  | mem
  | profile
  | ftg
  | follower
  | scheduler
  | commit
  | tiles
  | arbiter
  | port
  | ambient
  | store
  | report
  | window
  | pins
  | freeIndex
  | pending
deriving DecidableEq, Repr

/-- Two states hold the same in one part. For `mem` that means the same byte at every address. -/
def Part.same (p : Part) (s t : State) : Prop :=
  match p with
  | .mem => t.mem = s.mem
  | .profile => t.profile = s.profile
  | .ftg => t.ftg = s.ftg
  | .follower => t.follower = s.follower
  | .scheduler => t.scheduler = s.scheduler
  | .commit => t.commit = s.commit
  | .tiles => t.tiles = s.tiles
  | .arbiter => t.arbiter = s.arbiter
  | .port => t.port = s.port
  | .ambient => t.ambient = s.ambient
  | .store => t.store = s.store
  | .report => t.report = s.report
  | .window => t.window = s.window
  | .pins => t.pins = s.pins
  | .freeIndex => t.freeIndex = s.freeIndex
  | .pending => t.pending = s.pending

/-- `t` differs from `s` in the listed parts alone. -/
def OnlyIn (parts : List Part) (s t : State) : Prop := ∀ p, p ∉ parts → p.same s t

/-- `t` differs from `s` in no tile column but tile k's. -/
def OtherTilesKept (k : Nat) (s t : State) : Prop :=
  t.tiles.length = s.tiles.length ∧ ∀ j, j ≠ k → t.tile j = s.tile j

/-! ## Words of the manual that claims use -/

/-- A good address: not 0, a multiple of 64, below 0x2000_0000 (R34, R168). -/
def GoodAddress (a : Nat) : Prop := a ≠ 0 ∧ a % 64 = 0 ∧ a < 0x20000000

/-- The command a CMD write issues (R177). -/
def commandOf : Instr → Option Command
  | .adoptProfile _ => some .adoptProfile
  | .start => some .start
  | .redirect => some .redirect
  | .resume => some .resume
  | .stop => some .stop
  | .wallReset => some .wallReset
  | .invalidateStore => some .invalidateStore
  | _ => none

/-- A fault record has been handed on: it is in the write queue, or it waits for a place (R52). -/
def HandedFault (f : FaultRecord) (s t : State) : Prop :=
  (t.report.queue = s.report.queue ++ [.fault f false] ∧ t.report.holdFaults = s.report.holdFaults) ∨
  (t.report.queue = s.report.queue ∧ t.report.holdFaults = s.report.holdFaults ++ [f])

/-- The write a departing entry is owed: SKIPPED NO_TRIGGER with slip 0, or WITHDRAWN (R62, R73). -/
def departureWrite : Departure → OutcomeKind
  | .noTrigger => .skipped .noTrigger 0
  | .withdrawn => .withdrawn

/-- An entry of `s` has been removed from scheduling with a departure: it still stands in the queue, departing, or its
write has been received and no entry of its record stands there (R73). -/
def Departed (record : Nat) (d : Departure) (t : State) : Prop :=
  (∃ e ∈ t.scheduler.queue, e.cue.record = record ∧ e.departing = some d) ∨
  (QueueItem.outcome ⟨record, departureWrite d⟩ false ∈ t.report.queue ∧
    ∀ e ∈ t.scheduler.queue, e.cue.record ≠ record)

/-- An outcome write has been handed on: it is in the write queue, or it waits in the hand-off list (R79). -/
def Handed (record : Nat) (kind : OutcomeKind) (t : State) : Prop :=
  QueueItem.outcome ⟨record, kind⟩ false ∈ t.report.queue ∨ ⟨record, kind⟩ ∈ t.commit.handoff

/-- The outcome writes of one kind for one record that have been handed on and not yet granted: in the write queue, and in
the hand-off list (R79). -/
def handedCount (record : Nat) (kind : OutcomeKind) (s : State) : Nat :=
  s.report.queue.count (.outcome ⟨record, kind⟩ false) + s.commit.handoff.count ⟨record, kind⟩

/-- Every burst of a write of the write queue has been granted; a refresh has six (R183). -/
def WhollyGranted : QueueItem → Prop
  | .outcome _ granted => granted = true
  | .fault _ granted => granted = true
  | .refresh _ bursts _ _ => 6 ≤ bursts

/-- Some tile's scan context holds a snapshot taken by a cue of `record` as the old content of its fade (R24, R93). -/
def FadesFrom (record : Nat) (s : State) : Prop :=
  ∃ x ∈ s.tiles, ∃ f pass, x.scan.fade = some f ∧ f.oldCue = some ⟨record, pass⟩

/-- The Report Writer presents the write at position `i` of its queue: the first not wholly granted; a refresh at the head
of the queue alone, a fault record once no fault record stands before it (R52, R182, R184), and RELEASED once no fade
holds a snapshot of its cue (R24, R93, log entry 39). -/
def Presents (s : State) (i : Nat) : Prop :=
  let q := s.report.queue
  ∃ x, q[i]? = some x ∧ ¬ WhollyGranted x ∧ (∀ j y, j < i → q[j]? = some y → WhollyGranted y) ∧
    (∀ g n a b, x = .refresh g n a b → i = 0) ∧
    (∀ f granted, x = .fault f granted → ∀ j f' granted', j < i → q[j]? ≠ some (.fault f' granted')) ∧
    (∀ record granted, x = .outcome ⟨record, .released⟩ granted → ¬ FadesFrom record s)

/-- The show clock with its frame field at 0 and one second more, with carry (R5, R14). -/
def nextSecond (c : Clock) : Clock :=
  if c.seconds < 59 then ⟨c.hours, c.minutes, c.seconds + 1, 0⟩
  else if c.minutes < 59 then ⟨c.hours, c.minutes + 1, 0, 0⟩
  else if c.hours < 23 then ⟨c.hours + 1, 0, 0, 0⟩
  else ⟨0, 0, 0, 0⟩

/-- The scan context after a frame start's advance of a fade (R107) or, after a WALL_RESET, the clearing (R116). -/
def scanBegun (cleared : Bool) (c : Scan) : Scan :=
  if cleared then { c with current := .noPlate, fade := none, cue := none }
  else match c.fade with
    | none => c
    | some f =>
      if f.step < f.n then { c with fade := some { f with step := f.step + 1 } }
      else { c with current := f.new, fade := none }

/-- The scan context of a tile of a given size after it takes one switch (R102 to R106). -/
def scanTook (size : Nat × Nat) (c : Scan) (sw : Switch) : Scan :=
  let now := match c.fade with | some f => f.new | none => c.current
  match sw.body with
  | .scene plate x0 y0 fill tr cue =>
    let content := contentOf size plate x0 y0 fill
    match tr with
    | .cut | .fade 0 => { c with current := content, fade := none, cue := some cue }
    | .fade n => { c with current := now, fade := some ⟨now, content, n, 1, c.cue⟩, cue := some cue }
  | .trim street dusk => { c with street := street.getD c.street, dusk := dusk.getD c.dusk }
  | .level set => { c with set := set }

/-- The lane of a line buffer as a frame begins with a content (R118). -/
def laneBegun (c : Content) : Lane :=
  { content := c, words := [], fetchRow := 0, remainder := if c.rIn = 0 ∨ c.cIn = 0 then 0 else c.words
    lastPixel := none, underran := false }

/-- The answer of the first check that fails, in a table of checks in their order. -/
def firstFailing {α : Type} (checks : List (Bool × α)) : Option α := (checks.find? (·.1)).map (·.2)

/-- The framing checks of R37 in their order, on the bytes `r` read from `a`: offsets of section 12.1, details of R188. -/
def framingChecks (a : Nat) (r : List Byte) : List (Bool × HoldReason × BitVec 64) :=
  let kind := byteAt r 2
  let length := byteAt r 3
  let count := byteAt r 4
  let link := leAt r 32 8
  [(decide (0x20000000 < a + 72), .address, 0),
   (decide (0x20000000 < a + 8 * length), .address, BitVec.ofNat 64 length),
   (decide (leAt r 0 2 ≠ 0x5AC3), .marker, BitVec.ofNat 64 (leAt r 0 2)),
   (decide ((kind = 1 ∨ kind = 2) ∧ ¬ (1 ≤ count ∧ count ≤ 16)), .count, BitVec.ofNat 64 count),
   (decide (((kind = 1 ∨ kind = 2) ∧ length ≠ 9 + count) ∨ ((kind = 3 ∨ kind = 4) ∧ length ≠ 9)), .length,
    BitVec.ofNat 64 length),
   (decide (link ≠ 0 ∧ (link % 64 ≠ 0 ∨ 0x20000000 ≤ link)), .link, BitVec.ofNat 64 link),
   (decide (byteAt r 5 % 2 = 0 ∧ byteAt r 40 ≠ 0), .stale, BitVec.ofNat 64 (byteAt r 40))]

/-- The checks of meaning of R39 on a record's bytes, in their order, for a profile of `tiles` tiles and a rate: the
header's, then those of each element in list order (sections 12.1 and 12.7, R186, details of R188). -/
def meaningChecks (tiles rate : Nat) (r : List Byte) : List (Bool × RefuseReason × BitVec 64) :=
  let kind := byteAt r 2
  let tile (i : Nat) := byteAt r (72 + 8 * i) % 64
  let pair (i : Nat) := BitVec.ofNat 64 (i + 256 * tile i)
  let timed := byteAt r 6 = 1
  [(decide (kind = 0 ∨ 4 < kind), .badKind, 2), (decide (3 < byteAt r 6), .badKind, 6),
   (decide (kind = 1 ∧ 1 < byteAt r 7), .badKind, 7),
   (decide (timed ∧ 23 < byteAt r 16), .badTime, 16), (decide (timed ∧ 59 < byteAt r 17), .badTime, 17),
   (decide (timed ∧ 59 < byteAt r 18), .badTime, 18), (decide (timed ∧ rate ≤ byteAt r 19), .badTime, 19)] ++
  if kind = 1 ∨ kind = 2 then
    ((List.range (byteAt r 4)).map (fun i =>
      [(decide (tiles ≤ tile i), .badTile, pair i),
       ((List.range i).any (fun j => tile j == tile i), .dupTile, pair i),
       (decide (kind = 2 ∧ byteAt r (73 + 8 * i) % 4 = 0), .badKind, BitVec.ofNat 64 (256 + i))])).flatten
  else []

/-- The kind body of a record by its bytes (section 12.1, R186). -/
def BodyOf (r : List Byte) (body : CueBody) : Prop :=
  let o (i : Nat) := 72 + 8 * i
  (byteAt r 2 = 1 → body = .scene ((List.range (byteAt r 4)).map (fun i =>
    { tile := byteAt r (o i) % 64, plate := byteAt r (o i + 1), x0 := leAt r (o i + 2) 3 % 4096
      y0 := leAt r (o i + 2) 3 / 4096
      fill := if 128 ≤ byteAt r (o i)
        then some ⟨r.getD (o i + 5) 0, r.getD (o i + 6) 0, r.getD (o i + 7) 0⟩ else none }))) ∧
  (byteAt r 2 = 2 → body = .trim ((List.range (byteAt r 4)).map (fun i =>
    { tile := byteAt r (o i) % 64
      street := if byteAt r (o i + 1) % 2 = 1 then some (byteAt r (o i + 2) % 32) else none
      dusk := if byteAt r (o i + 1) / 2 % 2 = 1 then some (byteAt r (o i + 3) % 32) else none }))) ∧
  (byteAt r 2 = 3 → body = .clock ⟨byteAt r 20 % 32, byteAt r 21 % 64, byteAt r 22 % 64, byteAt r 23 % 64⟩) ∧
  (byteAt r 2 = 4 → body = .mark (BitVec.ofNat 32 (leAt r 24 4)))

/-- The profile's fields are those of a profile block, the profile record's bytes 8..103 (section 12.3). -/
def FieldsOf (b : List Byte) (p : Profile) : Prop :=
  p.tiles = byteAt b 0 ∧ p.rate = byteAt b 1 ∧ p.lmax = byteAt b 2 ∧ p.grace = byteAt b 3 ∧ p.lateWindow = leAt b 4 2 ∧
  p.budget = leAt b 6 2 ∧ p.plateTable = leAt b 8 4 ∧ p.statusPage = leAt b 12 4 ∧
  byteAt b 16 = (match p.ambientMode with | .auto => 0 | .forceStreet => 1 | .forceDusk => 2) ∧
  p.confirm = byteAt b 17 ∧ p.upThreshold = leAt b 18 2 ∧ p.downThreshold = leAt b 20 2 ∧ p.duskScale = leAt b 22 2 ∧
  p.triggerWidth = byteAt b 24 ∧ p.pulseWidth = byteAt b 25 ∧ p.pulseAlign = decide (byteAt b 26 % 2 = 1) ∧
  p.idleFill = ⟨b.getD 27 0, b.getD 28 0, b.getD 29 0⟩ ∧
  p.sizes = (List.range 16).map (fun i => (leAt b (32 + 4 * i) 2, leAt b (34 + 4 * i) 2)) ∧ p.block = b.take 96

/-- The ranges and the relation of R167. -/
def InRange (p : Profile) : Prop :=
  (1 ≤ p.tiles ∧ p.tiles ≤ 16) ∧
  (∀ k, k < p.tiles → 64 ≤ (p.size k).1 ∧ (p.size k).1 ≤ 2048 ∧ 64 ≤ (p.size k).2 ∧ (p.size k).2 ≤ 2048) ∧
  (p.rate = 50 ∨ p.rate = 60) ∧ p.lmax ≤ 7 ∧ (1 ≤ p.grace ∧ p.grace ≤ 15) ∧ p.lateWindow ≤ 3600 ∧
  (1 ≤ p.budget ∧ p.budget ≤ 65535) ∧ (p.plateTable % 64 = 0 ∧ p.plateTable + 8192 ≤ 0x20000000) ∧
  (p.statusPage % 4096 = 0 ∧ p.statusPage + 4096 ≤ 0x20000000) ∧
  (p.downThreshold < p.upThreshold ∧ p.upThreshold ≤ 4095) ∧ (1 ≤ p.confirm ∧ p.confirm ≤ 63) ∧
  (32 ≤ p.duskScale ∧ p.duskScale ≤ 256) ∧ p.triggerWidth ≤ 255 ∧ p.pulseWidth ≤ 255 ∧
  (p.plateTable + 8192 ≤ p.statusPage ∨ p.statusPage + 4096 ≤ p.plateTable)

/-! ## The budget check (R84) -/

/-- Words per frame of a plate on a tile of the given size from an origin (R26 to R28). -/
def cropWords (size : Nat × Nat) (plate : Snapshot) (x0 y0 : Nat) : Nat :=
  let columns := min size.1 (plate.width - x0)
  if columns = 0 then 0 else min size.2 (plate.height - y0) * ((x0 % 2 + columns + 1) / 2)

/-- Words per frame of what tile k would show without the cue: the last scene switch of its pending list, or else what
its scan context shows. -/
def wordsWithout (s : State) (k : Nat) : Nat :=
  match ((s.tile k).switches.filter (·.isScene)).getLast? with
  | some ⟨_, .scene plate x0 y0 _ _ _⟩ => cropWords (s.prof.size k) plate x0 y0
  | _ => (s.tile k).scan.shown.rIn * (s.tile k).scan.shown.words

/-- Words per frame of the content at V of tile k: its assignment, or what it would show without the cue. -/
def wordsWith (s : State) (plates : Nat → PlateEntry) (l : List Assignment) (k : Nat) : Nat :=
  match l.find? (fun x => x.tile == k) with
  | some x => cropWords (s.prof.size k) (plates x.plate).snapshot x.x0 x.y0
  | none => wordsWithout s k

/-- The tiles whose link state is JOINING or IN_STEP. -/
def tilesCounted (s : State) : List Nat :=
  (List.range s.prof.tiles).filter
    (fun k => decide ((s.tile k).link.state = .joining ∨ (s.tile k).link.state = .inStep))

/-- The cut demand. -/
def demandAtCut (s : State) (plates : Nat → PlateEntry) (l : List Assignment) : Nat :=
  ((tilesCounted s).map (wordsWith s plates l)).sum

/-- The fade demand. -/
def demandAtFade (s : State) (plates : Nat → PlateEntry) (l : List Assignment) : Nat :=
  demandAtCut s plates l +
    (((tilesCounted s).filter (fun k => l.any (fun x => x.tile == k))).map (wordsWithout s)).sum

/-! ## The engines' turn and their bursts -/

/-- A lane has a request ready: its engine is active, it has no outstanding burst, words of its row are still to be
requested, and the burst fits beside the words it holds, 1024 as the single lane and 512 beside another (R117, R122). -/
def LaneReady (e : Engine) (id : LaneId) : Prop :=
  e.active = true ∧ (id = .old → e.old.isSome = true) ∧ (∀ b ∈ e.flight, b.lane = id → b.stale = true) ∧
  0 < (e.lane id).remainder ∧
  (e.lane id).words.length + min 16 (e.lane id).remainder ≤ if e.old.isSome then 512 else 1024

/-- The engine offers a lane's request: of its ready lanes the one that holds fewer words, the old lane at equality
(R123). -/
def Offers (e : Engine) (id : LaneId) : Prop :=
  LaneReady e id ∧ ∀ other, other ≠ id → LaneReady e other →
    (e.lane id).words.length ≤ (e.lane other).words.length ∧
    ((e.lane id).words.length = (e.lane other).words.length → id = .old)

/-- Tile k's engine has been granted the request it offers: the next words of the offered lane's row, up to 16, are read
from show memory and in flight; the lane's row remainder falls by as many, and at its end the fetch row advances
(R122). -/
def EngineGranted (k : Nat) (s t : State) : Prop :=
  let e := (s.tile k).engine
  let e' := (t.tile k).engine
  t.tile k = { s.tile k with engine := e' } ∧
  e' = { e with main := e'.main, old := e'.old, flight := e'.flight } ∧ e'.old.isSome = e.old.isSome ∧
  ∃ id, Offers e id ∧
    let l := e.lane id
    e'.flight = e.flight ++
      [{ lane := id, row := l.fetchRow, stale := false,
         words := (List.range (min 16 l.remainder)).map (fun i =>
           Memory.readWord s.mem (l.content.rowStart l.fetchRow + (l.content.words - l.remainder) + i)) }] ∧
    (16 < l.remainder → e'.lane id = { l with remainder := l.remainder - 16 }) ∧
    (l.remainder ≤ 16 → e'.lane id = { l with
      fetchRow := l.fetchRow + 1
      remainder := if l.fetchRow + 1 < l.content.rIn then l.content.words else 0 }) ∧
    ∀ other, other ≠ id → e'.lane other = e.lane other

/-- The engines' decision order of a place: `k` waits, and no engine met earlier in counting upward and round from the
pointer does (R129). -/
def FirstAfter (pointer k : Nat) (urgent : Bool) (s : State) : Prop :=
  k < 16 ∧ (s.tile k).engine.waiting urgent = true ∧
    ∀ i, i < (k + 16 - (pointer + 1) % 16) % 16 → (s.tile ((pointer + 1 + i) % 16)).engine.waiting urgent = false

/-! ## References, due entries and armed waits -/

/-- An evaluated entry is a SCENE. -/
def SceneEval (v : Eval) : Prop := ∃ l, v.entry.cue.body = .scene l

/-- `r` is the dwell end of the reference of the `i`-th evaluated entry: the nearest scene ahead of it, or else the last
committed scene, or else the anchor (R56, R58). -/
def MeasuresFrom (s : State) (i : Nat) (r : RefEnd) : Prop :=
  (∀ j u, j < i → s.evals[j]? = some u → SceneEval u →
    (∀ k w, j < k → k < i → s.evals[k]? = some w → ¬ SceneEval w) →
    r = match u.vEff with
      | none => .unknown
      | some n => if u.entry.cue.dwell = 0 then .opened n else .frame (n + u.entry.cue.dwell)) ∧
  ((∀ j u, j < i → s.evals[j]? = some u → ¬ SceneEval u) →
    r = match s.scheduler.lastScene with
      | none => .frame s.scheduler.anchor
      | some l => match l.dwellEnd with
        | none => .opened l.visible
        | some d => .frame d)

/-- The oldest entry is due in the present frame start's run: it stood in the queue at the frame start, it is resolved,
and its V_eff is now + H (R61, R78). -/
def Due (s : State) (v : Eval) : Prop :=
  s.evals.head? = some v ∧ v.entry.attemptable = true ∧ v.vEff = some (s.now + s.horizon)

/-- The frame A of the oldest entry: the dwell end of the last committed scene, its V where that is open, or the anchor
frame (R67). -/
def waitsFrom (s : State) : Nat :=
  match s.scheduler.lastScene with
  | none => s.scheduler.anchor
  | some l => l.dwellEnd.getD l.visible

/-- `e`, an event wait of the given kind, is armed: it is the oldest entry, its event has not come, and now ≥ A − H
(R67), from its append on when it is appended as the oldest one (log entry 48). -/
def Armed (mode : StartMode) (s : State) (e : Entry) : Prop :=
  (s.scheduler.queue.filter (·.departing.isNone)).head? = some e ∧ e.cue.mode = mode ∧ e.eventFrame = none ∧
  waitsFrom s ≤ s.now + s.horizon

/-! ## Entries that leave the queue -/

/-- What becomes of an entry `e` that stays when the entries of the records `gone` leave the queue, at a commit with
`visible` frame or uncommitted (R65). The records drop out of its wait, and a CLOCK cue's commit gives it that cue's V,
the latest counting. A target not fixed is fixed at once, from the clock as it stands, when then neither a CLOCK entry
ahead nor a clock set still to come is waited for; otherwise it goes on waiting. -/
def ClocksGone (gone : List Nat) (visible : Option Nat) (s : State) (e x : Entry) : Prop :=
  let heard := ∃ r ∈ gone, r ∈ e.clockAhead
  let rest := e.clockAhead.filter (fun r => !gone.contains r)
  let unfixed := e.cue.mode = .atTime ∧ e.target = none ∧ e.departing = none
  let waits := rest ≠ [] ∨ ∃ f, x.clockFrame = some f ∧ s.now < f
  let target := atTarget s.prof s.now s.ftg.clock e.cue.atTime
  x.clockAhead = rest ∧
  (∀ v, visible = some v → heard → x.clockFrame = some (match e.clockFrame with | none => v | some f => max f v)) ∧
  ((visible = none ∨ ¬ heard) → x.clockFrame = e.clockFrame) ∧
  (unfixed → ¬ waits → x.target = some target.1 ∧ x.late = target.2) ∧
  ((¬ unfixed ∨ waits) → x.target = e.target ∧ x.late = e.late) ∧
  x = { e with clockAhead := x.clockAhead, clockFrame := x.clockFrame, target := x.target, late := x.late }

/-- The entry of `record` has left the queue of `s`, and the others stay in their order (R41, R65, R74). -/
def EntryLeft (record : Nat) (visible : Option Nat) (s t : State) : Prop :=
  List.Forall₂ (ClocksGone [record] visible s)
    (s.scheduler.queue.filter (fun e => e.cue.record != record)) t.scheduler.queue

/-- The Chain Follower decides again when an entry has left the queue: out of FULL always, and out of WAIT_REUSE once the
record it waits for has no entry there and no write waiting (R41). -/
def FollowerTold (s t : State) : Prop :=
  let inUse := (∃ e ∈ t.scheduler.queue, e.cue.record = s.follower.follow) ∨
    (∃ k g, QueueItem.outcome ⟨s.follower.follow, k⟩ g ∈ t.report.queue) ∨
    (∃ w ∈ t.commit.handoff, w.record = s.follower.follow)
  ((s.follower.state = .full ∨ (s.follower.state = .waitReuse ∧ ¬ inUse)) →
    t.follower = { s.follower with state := .fetching }) ∧
  (s.follower.state ≠ .full → (s.follower.state = .waitReuse → inUse) → t.follower = s.follower)

/-- DRY is raised when the last entry has left the queue with the Chain Follower in AWAIT_LINK, and otherwise the Register
Window stays as it was (R44). -/
def DryTold (s t : State) : Prop :=
  (s.follower.state = .awaitLink → t.scheduler.queue = [] → t.flag .dry = true) ∧
  ((s.follower.state ≠ .awaitLink ∨ t.scheduler.queue ≠ []) → t.window = s.window)

/-- A commit attempt's decision takes the scene entry of `record` out of the queue, and the frame start's run of attempts
goes on from there (R41, R44, R74, R78). -/
def AttemptLeaves (record : Nat) (s t : State) : Prop :=
  FollowerTold s t ∧ DryTold s t ∧ (∀ e ∈ t.scheduler.queue, e.cue.record ≠ record) ∧
  ∃ u, EntryLeft record none s u ∧ u.commit.attempt = none ∧
    t = dryEdge s (attemptRun (s.scheduler.queue.length + 1) u)

/-! ## The status page and frame 0 -/

/-- The values a refresh reports of the part, but for the follower's state and the store's result (R182). -/
def PageHolds (g : PageSnapshot) (t : State) : Prop :=
  g.frame = t.now ∧ g.wall = t.window.wall ∧ g.follow = t.follower.follow ∧ g.clock = t.ftg.clock ∧
  g.average = t.ambient.average.getD 0 ∧ g.level = t.ambient.level ∧ g.sensor = t.ambient.status ∧
  g.handback = t.report.handback ∧ g.tag = t.report.tag ∧ g.skipped = t.report.skipped ∧
  g.tiles.length = t.tiles.length ∧
  ∀ k r, g.tiles[k]? = some r →
    r.link = (t.tile k).link.state ∧ r.descriptor = (t.tile k).link.descriptor ∧
    r.missCount = (t.tile k).link.missCount ∧ r.underruns = (t.tile k).engine.underruns ∧
    r.set = (t.tile k).scan.set ∧ r.cue = (t.tile k).scan.cue.map (·.record) ∧
    ((t.tile k).scan.cue = none → r.dwellEnd = some 0) ∧
    (∀ id e, (t.tile k).scan.cue = some id → t.commit.showing.find? (fun e => e.id == id) = some e →
      r.dwellEnd = e.dwellEnd)

/-- The frame start of frame 0 has been taken after `s` under the adopted profile `p` (R1, R12, R138, R151, R157, R158,
R165, R182): the beat starts, every link of a tile of the profile sends IDENTIFY and trains, its engine idle, polling
begins with its first read, and the first refresh takes a free place or is skipped and counted. With FORCE_DUSK the
ambient state changes from STREET to DUSK, AMBIENT is raised, and the set change of frame 0 is handed on: placed at
V − Lmax = 1 in the list of every tile, none having a current latency, when each has room (R86, R89), and otherwise
waiting with V = H. In the other modes the Ambient Unit hands on nothing. -/
def FrameZeroTaken (p : Profile) (s t : State) : Prop :=
  t.ftg = { s.ftg with
    running := true, frame := 0, begun := false
    trigger := if s.pins.trigger then .waitInactive else .idle
    pulse := if s.pins.pulse then .waitInactive else .idle } ∧
  (∀ k, k < p.tiles → k < s.tiles.length →
    (t.tile k).link.state = .training ∧ (t.tile k).link.timer = 0 ∧ (t.tile k).link.header = some ⟨0, true⟩ ∧
    (t.tile k).engine.active = false) ∧
  t.ambient = { s.ambient with
    polling := true, inFlight := t.ambient.inFlight, level := t.ambient.level, confirm := t.ambient.confirm } ∧
  t.ambient.inFlight.isSome = true ∧
  (s.openPlaces = 0 → t.report.queue = s.report.queue ∧ t.report.skipped = s.report.skipped + 1 ∧
    t.report.tagNew = s.report.tagNew) ∧
  (0 < s.openPlaces → ∃ g,
    t.report.queue = s.report.queue ++ [.refresh g 0 s.report.tagNew s.report.resultNew] ∧
    t.report.skipped = s.report.skipped ∧ t.report.tagNew = false ∧
    PageHolds g t ∧ g.follower = s.follower.state ∧ g.result = s.store.result) ∧
  (p.ambientMode ≠ .forceDusk → t.ambient.level = s.ambient.level ∧ t.ambient.confirm = s.ambient.confirm ∧
    t.commit = s.commit ∧ t.flag .ambient = s.flag .ambient ∧
    ∀ k, (t.tile k).switches = (s.tile k).switches) ∧
  (p.ambientMode = .forceDusk → s.ambient.level = .street →
    let room := ∀ k, k < p.tiles → (s.tile k).switches.countP (fun sw => sw.frame != 0) < 16
    t.ambient.level = .dusk ∧ t.ambient.confirm = 0 ∧ t.flag .ambient = true ∧
    (room → t.commit = { s.commit with levelRequest := none, commitCount := s.commit.commitCount + 1 } ∧
      ∀ k, k < p.tiles → k < s.tiles.length → ⟨1, .level .dusk⟩ ∈ (t.tile k).switches) ∧
    (¬ room → t.commit = { s.commit with levelRequest := some ⟨.dusk, p.lmax + 1⟩ } ∧
      ∀ k, (t.tile k).switches = (s.tile k).switches))

/-! ## The level decision -/

/-- A new average `avg` is judged in AUTO mode with the confirmation count at `c`: short of K readings in a row on which
the condition to change holds nothing is handed on; at the K-th the ambient state changes, AMBIENT is raised, and the set
change is placed at V − L_k in every tile's list when each has room, and otherwise waits (R86, R89, R154, R158). -/
def LevelJudged (avg c : Nat) (s t : State) : Prop :=
  let holds := (s.ambient.level = .street ∧ avg ≤ s.prof.downThreshold) ∨
    (s.ambient.level = .dusk ∧ s.prof.upThreshold ≤ avg)
  let room := ∀ k, k < s.prof.tiles → (s.tile k).switches.countP (fun sw => sw.frame != s.now) < 16
  (¬ holds → t.ambient.level = s.ambient.level ∧ t.ambient.confirm = 0 ∧ OnlyIn [.ambient, .window] s t) ∧
  (holds → c + 1 < s.prof.confirm →
    t.ambient.level = s.ambient.level ∧ t.ambient.confirm = c + 1 ∧ OnlyIn [.ambient, .window] s t) ∧
  (holds → s.prof.confirm ≤ c + 1 →
    t.ambient.level ≠ s.ambient.level ∧ t.ambient.confirm = 0 ∧ t.flag .ambient = true ∧
    (room → t.commit = { s.commit with levelRequest := none, commitCount := s.commit.commitCount + 1 } ∧
      ∀ k, k < s.prof.tiles → k < s.tiles.length →
        ⟨s.now + s.horizon - ((s.tile k).link.latency.getD s.prof.lmax), .level t.ambient.level⟩ ∈
          (t.tile k).switches) ∧
    (¬ room → t.tiles = s.tiles ∧
      t.commit = { s.commit with levelRequest := some ⟨t.ambient.level, s.now + s.horizon⟩ }))

/-! ## Pixels and events -/

/-- What a lane gives at tile row `r` and column `c`, the lane after it, and whether it underruns there (R108, R121, R125,
R126): the fill outside the plate; inside it the next pixel of its words, or, when the word at its front is not of the
row, from there to the end of the row's plate positions its last pixel sent in the row, or the fill, the row's fetch
abandoned. -/
def LaneGives (fill : Rgb) (r c : Nat) (l : Lane) (px : Rgb) (after : Lane) (underruns : Bool) : Prop :=
  let inside := r < l.content.rIn ∧ c < l.content.cIn
  let second := (l.content.x0 % 2 + c) % 2 = 1
  (¬ inside → px = fill ∧ after = l ∧ underruns = false) ∧
  (inside → l.underran = true → px = l.lastPixel.getD fill ∧ after = l ∧ underruns = false) ∧
  (∀ x rest, inside → l.underran = false → l.words = x :: rest → x.row = r →
    px = pixelOf x.data (decide second) ∧ underruns = false ∧
    after = { l with words := if second ∨ c + 1 = l.content.cIn then rest else x :: rest, lastPixel := some px }) ∧
  (inside → l.underran = false → (∀ x rest, l.words = x :: rest → x.row ≠ r) →
    px = l.lastPixel.getD fill ∧ underruns = true ∧
    (l.fetchRow = r → after = { l with
      underran := true, fetchRow := r + 1, remainder := if r + 1 < l.content.rIn then l.content.words else 0 }) ∧
    (l.fetchRow ≠ r → after = { l with underran := true }))

/-- What an accepted event of the present frame does to the Cue Scheduler and the Commit Unit (R67, R68, R70 to R72, R95): in
SHOWING it resolves an armed entry of its kind with derived V = t + 1 + H, or a trigger that resolves none lengthens a
visible last committed scene with EXTEND and a dwell; otherwise, and in every other wall state, nothing. -/
def EventTaken (i : EventInput) (s t : State) : Prop :=
  let armed := Armed (if i = .trigger then .onTrigger else .onPulse) s
  let lengthens (l : LastScene) : Prop := i = .trigger ∧ l.visible ≤ s.now ∧ l.extend = true ∧ 0 < l.dwell
  let raised (l : LastScene) : Option Nat := l.dwellEnd.map (fun d => max d (s.now + 1 + l.dwell))
  (s.window.wall ≠ .showing → t.scheduler = s.scheduler ∧ t.commit = s.commit) ∧
  (∀ e, s.window.wall = .showing → armed e →
    t.commit = s.commit ∧ t.scheduler = { s.scheduler with queue := s.scheduler.queue.map (fun x =>
      if x.cue.record = e.cue.record ∧ x.departing = none
        then { x with eventFrame := some (s.now + 1 + s.horizon) } else x) }) ∧
  (∀ l, s.window.wall = .showing → (∀ e, ¬ armed e) → s.scheduler.lastScene = some l → lengthens l →
    t.scheduler = { s.scheduler with lastScene := some { l with dwellEnd := raised l } } ∧
    t.commit = { s.commit with showing := s.commit.showing.map (fun e =>
      if e.id = l.id then { e with dwellEnd := raised l } else e) }) ∧
  (s.window.wall = .showing → (∀ e, ¬ armed e) → (∀ l, s.scheduler.lastScene = some l → ¬ lengthens l) →
    t.scheduler = s.scheduler ∧ t.commit = s.commit)

/-! ## Invariants -/

/-- How the wall state, the profile, the frame beat, an ADOPT_PROFILE at work, the stop frame and a busy STOP hang
together (R1, R96, R97, R165, R166, R168, R178). -/
structure ControlInv (s : State) : Prop where
  /-- The Frame Timing Generator runs exactly when a profile is adopted. -/
  beat : s.ftg.running = s.profile.isSome
  /-- A profile is adopted in STANDBY, SHOWING and STOPPING, and in no other wall state. -/
  adopted : s.profile.isSome = true ↔ s.window.wall = .standby ∨ s.window.wall = .showing ∨ s.window.wall = .stopping
  /-- An ADOPT_PROFILE is at work in AWAIT_PROFILE alone. -/
  adopting : s.window.adoption.isSome = true → s.window.wall = .awaitProfile
  /-- There is a stop frame exactly in STOPPING. -/
  stopping : s.commit.stopFrame.isSome = true ↔ s.window.wall = .stopping
  /-- STOP is the busy command exactly in STOPPING. -/
  stopBusy : s.window.stopBusy = true ↔ s.window.wall = .stopping

/-- A record fetch is in flight. -/
def State.fetchingRecord (s : State) : Option Nat :=
  match s.follower.fetch with
  | some (.record a _ _) => some a
  | some (.link _ _) => none
  | none => none

/-- The look-ahead queue with the record on its way to it: at most 8 entries, never two with one record address (R54,
R35). -/
structure LookAheadInv (s : State) : Prop where
  room : s.scheduler.queue.length + (if s.fetchingRecord.isSome then 1 else 0) ≤ Config.queueDepth
  distinct : (s.scheduler.queue.map (·.cue.record)).Nodup
  fresh : ∀ a, s.fetchingRecord = some a → a ∉ s.scheduler.queue.map (·.cue.record)

/-- The write queue, with the places reserved in it, holds at most 64 places (R52, R35, R79). -/
def WriteQueueInv (s : State) : Prop := s.report.queue.length + s.reservedPlaces ≤ Config.writeQueueDepth

/-- The showing table, the due list and the host window port keep their depths (R91, R83, R130). -/
structure DepthInv (s : State) : Prop where
  showing : s.commit.showing.length ≤ Config.showingDepth
  due : s.commit.due.length ≤ Config.dueDepth
  port : s.port.accesses.length ≤ Config.portDepth
  tiles : s.tiles.length = Config.tileCount

/-- The pending switch lists keep their 16 places, an entry of the present frame counted as gone (R83, R87), with what
that rests on: the lists' order, no switch left behind its frame, latencies within Lmax and no tile twice in one cue. -/
structure SwitchInv (s : State) : Prop where
  places : ∀ k, (s.tile k).switches.countP (fun sw => sw.frame != s.now) ≤ 16
  ordered : ∀ k, (s.tile k).switches.Pairwise (fun x y => x.frame ≤ y.frame)
  ahead : ∀ k, ∀ sw ∈ (s.tile k).switches, s.now < sw.frame
  latency : ∀ k n, (s.tile k).link.latency = some n → n ≤ s.prof.lmax
  idle : s.profile = none → s.ftg.begun = false ∧ ∀ k, (s.tile k).link.state.carries = false
  tilesOnce : ∀ e ∈ s.scheduler.queue, match e.cue.body with
    | .scene l => (l.map (·.tile)).Nodup
    | .trim l => (l.map (·.tile)).Nodup
    | .clock _ => True
    | .mark _ => True

/-- A transition of the wall state that R178 lists, or none. A frame start may be taken at a WAIT_LIMIT_SKIP (log entry
10). -/
def WallStep (c : Instr) (before after : WallState) : Prop :=
  after = before ∨
  (before = .loading ∧ (∃ unread, c = .loadingEnd unread) ∧ (after = .standby ∨ after = .awaitProfile)) ∨
  (before = .awaitProfile ∧ c = .profileRecordReadDone ∧ after = .standby) ∨
  (before = .standby ∧ c = .start ∧ after = .showing) ∨
  (before = .showing ∧ c = .stop ∧ after = .stopping) ∨
  (before = .stopping ∧ (c = .frameStart ∨ ∃ record, c = .waitLimitSkip record) ∧ after = .standby) ∨
  ((before = .showing ∨ before = .stopping) ∧ c = .wallReset ∧ after = .standby) ∨
  ((∃ cut, c = .deviceReset cut) ∧ after = .loading)

end Sys2Proof.Machine
end

