-- ==== Sys2Proof/Certificates/Slice0/Obligations.lean ====
section
/-! DEFINITION. The statements for the provers. Each docstring cites the rule of the manual it formalises. -/

section

open Sys2Proof Sys2Proof.Machine

/-! ## The whole part -/

/-- The step of a part with command `c` at the front of its queue is `exec c` on the state with the queue's rest, and
an empty queue idles (the model's own queue, log entries 6 and 22). -/
def Obligations.StepRunsFrontCommand : Prop :=
  ∀ (c : Instr) (q : List Instr) (s : State),
    step (s.setPending (c :: q)) = exec c (s.setPending q) ∧ step (s.setPending []) = .next (s.setPending [])

/-- The Memory Arbiter is the single way into show memory (R128): no command but GRANT_DECISION changes a byte of it.
That DEVICE_RESET keeps every byte when it stands for a power-on too, where section 2.6 (R32) leaves show memory
undefined, is the model's choice (log entry 40). -/
def Obligations.ShowMemoryChangesAtGrantsOnly : Prop :=
  ∀ (c : Instr) (s t : State), c ≠ .grantDecision → exec c s = .next t →
    ∀ a, Memory.read t.mem a = Memory.read s.mem a

/-- Show memory keeps its canonical form over every step (the model's representation, R128, log entry 1). -/
def Obligations.MemoryStaysCanonical : Prop :=
  ∀ s t : State, Memory.wf s.mem = true → step s = .next t → Memory.wf t.mem = true

/-- The state after power-on meets every invariant of this file (R16, R48, R77, R99, R174, R185). -/
def Obligations.ResetStateMeetsInvariants : Prop :=
  Memory.wf State.reset.mem = true ∧ ControlInv State.reset ∧ LookAheadInv State.reset ∧ WriteQueueInv State.reset ∧
    DepthInv State.reset ∧ SwitchInv State.reset

/-- The wall state, the profile, the frame beat, an ADOPT_PROFILE at work, the stop frame and a busy STOP go together
over every step (R1, R97, R165, R166, R168, R178). -/
def Obligations.ControlInvariantKept : Prop :=
  ∀ s t : State, ControlInv s → step s = .next t → ControlInv t

/-- Over every step the look-ahead queue holds at most 8 entries and never two with the same record address (R54), the
record being fetched counted (R35). -/
def Obligations.LookAheadQueueBoundsKept : Prop :=
  ∀ s t : State, LookAheadInv s → step s = .next t → LookAheadInv t

/-- Over every step the write queue, its reserved places counted, stays within its 64 places (R35, R52, R79). -/
def Obligations.WriteQueuePlacesKept : Prop :=
  ∀ s t : State, WriteQueueInv s → step s = .next t → WriteQueueInv t

/-- Over every step the showing table holds at most 24 entries, the due list 16, the host window port 8 accesses, and
the part has its sixteen tile columns (R83, R91, R130); and every pending switch list keeps its 16 places, ordered by
switch frame, an entry of the present frame counted as gone (R83, R87). What the lists' bound rests on beside them is
the model's inference: switches ahead of their frame, latencies within Lmax, no tile twice in one cue. -/
def Obligations.TableDepthsKept : Prop :=
  (∀ s t : State, DepthInv s → step s = .next t → DepthInv t) ∧
  ∀ s t : State, ControlInv s → DepthInv s → SwitchInv s → step s = .next t → SwitchInv t

/-- The wall state changes by the transitions of R178 and by no other. That STOPPING may so become STANDBY at a
WAIT_LIMIT_SKIP, which takes the frame start of the stop frame, is the model's choice (log entry 10). -/
def Obligations.WallStateTransitions : Prop :=
  ∀ (c : Instr) (s t : State), ControlInv s → exec c s = .next t → WallStep c s.window.wall t.window.wall

/-- An adopted profile stays adopted, the Frame Timing Generator keeps running, and the frame number rises by 1 at
each frame start and is never set back, until a device reset (R1, R2, R165). That a frame start may be taken at a
WAIT_LIMIT_SKIP, the FRAME_START of that frame then raising nothing, is the model's choice (log entry 10). -/
def Obligations.ProfileAndBeatLockedUntilReset : Prop :=
  ∀ (c : Instr) (s t : State) (p : Profile), ControlInv s → s.profile = some p → (∀ cut, c ≠ .deviceReset cut) →
    exec c s = .next t →
    t.profile = some p ∧ t.ftg.running = true ∧
    (c = .frameStart → t.now = (if s.ftg.begun then s.now else s.now + 1) ∧ t.ftg.begun = false) ∧
    (∀ record, c = .waitLimitSkip record →
      (t.now = s.now ∧ t.ftg.begun = s.ftg.begun) ∨
      (s.ftg.begun = false ∧ t.now = s.now + 1 ∧ t.ftg.begun = true)) ∧
    (c ≠ .frameStart → (∀ record, c ≠ .waitLimitSkip record) → t.now = s.now ∧ t.ftg.begun = s.ftg.begun)

/-- One interrupt message goes out in exactly the steps in which the set of flags both set and enabled goes from empty
to not empty with message signalling enabled (R181). -/
def Obligations.OneMessagePerTransition : Prop :=
  ∀ (c : Instr) (s t : State), exec c s = .next t →
    t.window.messages = s.window.messages +
      (if s.window.attending = false ∧ t.window.attending = true ∧ t.window.signalling = true then 1 else 0)

/-- A flag of ATTN once set stays set until the host's clearing write or a device reset, and ATTN_MASK changes only
when the host writes it or at a device reset (R180, R185). -/
def Obligations.AttentionFlagsStaySet : Prop :=
  ∀ (c : Instr) (s t : State), (∀ cut, c ≠ .deviceReset cut) → exec c s = .next t →
    ((∀ v, c ≠ .attnWrite v) → s.window.attn &&& t.window.attn = s.window.attn) ∧
    ((∀ v, c ≠ .attnMaskWrite v) → t.window.mask = s.window.mask)

/-- A committed scene stands (R80): over every step but a frame start, a wall reset and a device reset, its
showing-table entry stays, with its pass, visible frame, held tiles and flags. At a frame start an entry becomes
visible at its V with its SHOWN write; a tile leaves its held set exactly when it takes a later scene's switch or a
stop switch; a visible entry that no tile holds leaves the table, with one RELEASED unless it is KEEP, and no other
RELEASED is handed on; a due-list entry of that V is completed with DONE, or SHOWN for KEEP, and leaves; and the tag
of a MARK completed so is new for the refresh (R90, R92, R93, R94, R182). That a frame start may be taken at a
WAIT_LIMIT_SKIP is the model's choice (log entry 10). -/
def Obligations.CommittedScenesStand : Prop :=
  (∀ (c : Instr) (s t : State), c ≠ .frameStart → (∀ record, c ≠ .waitLimitSkip record) → c ≠ .wallReset →
    (∀ cut, c ≠ .deviceReset cut) → exec c s = .next t →
    ∀ e ∈ s.commit.showing, ∃ e' ∈ t.commit.showing, e'.id = e.id ∧ e'.visible = e.visible ∧ e'.held = e.held ∧
      e'.shown = e.shown ∧ e'.degraded = e.degraded ∧ e'.clipped = e.clipped ∧ e'.overBudget = e.overBudget) ∧
  ∀ s : State, s.ftg.running = true → s.ftg.begun = false → (s.commit.showing.map (·.id)).Nodup →
    ∃ t, exec .frameStart s = .next t ∧
      (∀ (i : Nat) (e : ShowEntry), s.commit.showing[i]? = some e → e.held.Nodup →
        let shown := e.shown || decide (e.visible = s.now + 1)
        let gives (k : Nat) : Prop := k < 16 ∧ ((s.tile k).stopAt = some (s.now + 1) ∨
          ∃ plate x0 y0 fill tr, ∃ (j : Nat) (e' : ShowEntry), i < j ∧ s.commit.showing[j]? = some e' ∧
            ⟨s.now + 1, .scene plate x0 y0 fill tr e'.id⟩ ∈ (s.tile k).switches)
        (e.visible = s.now + 1 → e.shown = false →
          Handed e.id.record (.sceneShown e.degraded e.clipped e.overBudget) t) ∧
        (∀ e' ∈ t.commit.showing, e'.id = e.id →
          e' = { e with shown := shown, held := e'.held } ∧ ∀ k, k ∈ e'.held ↔ k ∈ e.held ∧ ¬ gives k) ∧
        (shown = true → (∀ k ∈ e.held, gives k) →
          (∀ e' ∈ t.commit.showing, e'.id ≠ e.id) ∧ (e.keep = false → Handed e.id.record .released t)) ∧
        (shown = false ∨ (∃ k ∈ e.held, ¬ gives k) → ∃ e' ∈ t.commit.showing, e'.id = e.id)) ∧
      (∀ record, handedCount record .released t = handedCount record .released s +
        s.commit.showing.countP (fun e =>
          !e.keep && e.id.record == record && !t.commit.showing.any (fun e' => e'.id == e.id))) ∧
      (∀ d ∈ t.commit.due, d.visible ≠ s.now + 1) ∧
      (∀ d ∈ s.commit.due,
        (d.visible = s.now + 1 → ∃ refused,
          Handed d.record (if d.keep then .keepShown d.visible d.slip d.late refused
            else .done d.visible d.slip d.late refused) t ∧
          (((∀ entries, d.body ≠ .trim entries) ∨ d.persist = false) → refused = false) ∧
          (∀ entries, d.body = .trim entries → d.persist = true → s.store.job.isSome = true → refused = true)) ∧
        (d.visible ≠ s.now + 1 → (∀ x ∈ s.commit.due, x.visible = s.now + 1 → x.pass ≠ d.pass) →
          d ∈ t.commit.due)) ∧
      ((∀ d ∈ s.commit.due, d.visible = s.now + 1 → ∀ tag, d.body ≠ .mark tag) →
        t.report.tag = s.report.tag ∧ (untilRefresh s).report.tagNew = s.report.tagNew) ∧
      ((∃ d ∈ s.commit.due, d.visible = s.now + 1 ∧ ∃ tag, d.body = .mark tag) →
        (untilRefresh s).report.tagNew = true ∧
        ∃ d ∈ s.commit.due, d.visible = s.now + 1 ∧ d.body = .mark t.report.tag)

/-! ## The arithmetic of the manual -/

/-- The show clock's increment at a frame start that no clock set and no alignment touches (R5): a field below its top
value goes up by 1 and the increment ends there; one at or above it becomes 0 and carries into the next field up; a
carry out of hours ends; the frame field stays below the rate. -/
def Obligations.ShowClockIncrementCarries : Prop :=
  (∀ s : State, s.ftg.running = true → s.ftg.begun = false →
    (∀ e ∈ s.ftg.clockSets, e.visible ≠ s.now + 1) → s.ftg.alignPending = false →
    ∃ t, exec .frameStart s = .next t ∧ t.ftg.clock = s.ftg.clock.increment s.prof.rate) ∧
  ∀ (rate : Nat) (c : Clock), 1 ≤ rate →
    (c.frame < rate - 1 → c.increment rate = ⟨c.hours, c.minutes, c.seconds, c.frame + 1⟩) ∧
    (rate - 1 ≤ c.frame → c.seconds < 59 → c.increment rate = ⟨c.hours, c.minutes, c.seconds + 1, 0⟩) ∧
    (rate - 1 ≤ c.frame → 59 ≤ c.seconds → c.minutes < 59 → c.increment rate = ⟨c.hours, c.minutes + 1, 0, 0⟩) ∧
    (rate - 1 ≤ c.frame → 59 ≤ c.seconds → 59 ≤ c.minutes → c.hours < 23 →
      c.increment rate = ⟨c.hours + 1, 0, 0, 0⟩) ∧
    (rate - 1 ≤ c.frame → 59 ≤ c.seconds → 59 ≤ c.minutes → 23 ≤ c.hours → c.increment rate = ⟨0, 0, 0, 0⟩) ∧
    (c.increment rate).frame < rate

/-- The target of an AT time is the frame at which the clock, going on from what it reads now, shows that time of day,
the time of day of a clock value being ((h × 60 + m) × 60 + s) × rate + f modulo a day: the next such frame, at most a
day less the late window ahead, or with LATE the one just passed, inside the late window (R64). -/
def Obligations.AtTargetIsTheTimeOfDay : Prop :=
  ∀ (p : Profile) (now : Nat) (clock atTime : Clock), 0 < p.rate → p.lateWindow ≤ 3600 →
    let day := 86400 * p.rate
    let tod (c : Clock) : Nat := (((c.hours * 60 + c.minutes) * 60 + c.seconds) * p.rate + c.frame) % day
    let ahead := (tod atTime + day - tod clock) % day
    let r := atTarget p now clock atTime
    (ahead ≤ day - p.lateWindow * p.rate → r = ((now : Int) + ahead, false)) ∧
    (day - p.lateWindow * p.rate < ahead → r = ((now : Int) - ((day : Int) - ahead), true)) ∧
    ((tod clock : Int) + (r.1 - now)) % (day : Int) = (tod atTime : Int) ∧
    (r.2 = false → (now : Int) ≤ r.1 ∧ r.1 ≤ (now : Int) + day - (p.lateWindow * p.rate : Nat)) ∧
    (r.2 = true → r.1 < (now : Int) ∧ (now : Int) - (p.lateWindow * p.rate : Nat) < r.1)

/-- A LOADING or READY plate-table entry is valid exactly when the five conditions of R20 hold, its base read as a
word address (R18); an EMPTY entry is not checked, and any other code is invalid (R19). -/
def Obligations.PlateEntryValidity : Prop :=
  ∀ e : PlateEntry,
    ((e.state = .loading ∨ e.state = .ready) → (e.invalid = false ↔
      1 ≤ e.stride ∧ (1 ≤ e.width ∧ e.width ≤ 4096) ∧ (1 ≤ e.height ∧ e.height ≤ 4096) ∧
        e.width ≤ 2 * e.stride ∧ (e.base - e.base % 8) + e.height * e.stride * 8 ≤ 0x20000000)) ∧
    (e.state = .empty → e.invalid = false ∧ e.isReady = false) ∧ (e.state = .other → e.invalid = true) ∧
    (e.state = .ready → e.isReady = !e.invalid) ∧ (e.state = .loading → e.isReady = false)

/-- For a valid plate-table entry every word a tile fetches lies inside the plate's extent, and so inside show memory
(R20, R28). -/
def Obligations.FetchStaysInsideTheExtent : Prop :=
  ∀ (e : PlateEntry) (size : Nat × Nat) (x0 y0 : Nat) (fill : Option Rgb) (r k : Nat), e.fits = true →
    let c := contentOf size e.snapshot x0 y0 fill
    r < c.rIn → k < c.words →
      e.base / 8 ≤ c.rowStart r + k ∧ c.rowStart r + k < e.base / 8 + e.height * e.stride ∧
        8 * (c.rowStart r + k) + 8 ≤ 0x20000000

/-- The fade mixer (R107): the mean is in range, a component equal in both contents is unchanged, the last step gives
the new content, and the value is the weighted mean rounded to the nearer whole number, halfway up. -/
def Obligations.FadeMixIsTheRoundedMean : Prop :=
  ∀ a b n i : Nat, a ≤ 255 → b ≤ 255 → 1 ≤ n → i ≤ n →
    mix a b n i ≤ 255 ∧ mix a a n i = a ∧ mix a b n n = b ∧
    2 * (a * (n - i) + b * i) < 2 * n * mix a b n i + n ∧ 2 * n * mix a b n i ≤ 2 * (a * (n - i) + b * i) + n

/-- The level stage (R109 to R112): the gain of each code, the two formulas, unity at code 16, and an output that is
always a component. -/
def Obligations.LevelStageScalesAndSaturates : Prop :=
  ∀ (sc : Scan) (m scale : Nat), m ≤ 255 →
    sc.level scale m ≤ 255 ∧
    (sc.set = .street → sc.level scale m = min 255 ((m * (192 + 4 * sc.street) + 128) / 256)) ∧
    (sc.set = .dusk → sc.level scale m = min 255 ((m * (192 + 4 * sc.dusk) * scale + 32768) / 65536)) ∧
    (sc.set = .street → sc.street = 16 → sc.level scale m = m) ∧
    (sc.set = .dusk → sc.dusk = 16 → scale = 256 → sc.level scale m = m)

/-- The entries that are not departing are evaluated in chain order. Each measures from its reference: the nearest
scene ahead, or else the last committed scene, or else the anchor. Its derived V is, for AFTER, the dwell end of the
reference, none when that is open or unknown; for AT, its target; for an event wait, its event frame. It is unresolved
while that is missing or an entry ahead is unresolved. The effective visible frame of a resolved entry is the greatest
of the terms of R59: its derived V; the frame of the entry ahead, or for the oldest the last committed frame; for a
scene one more than the nearest scene ahead, or than the last committed scene; and now + H. None lies below any term
that applies to it, and each is one of them. The slip of a resolved entry is V_eff less its derived V, saturated at
65,535 (R54, R56, R58 to R60, R62, R63, R68). -/
def Obligations.VisibleFramesFollowChainOrder : Prop :=
  (∀ s : State, s.evals.map (·.entry) = s.scheduler.queue.filter (·.departing.isNone)) ∧
  (∀ (s : State) (i : Nat) (v : Eval), s.evals[i]? = some v →
    let mode := v.entry.cue.mode
    let event := mode = .onTrigger ∨ mode = .onPulse
    MeasuresFrom s i v.ref ∧
    (mode = .after → (∀ n, v.ref = .frame n → v.derived = some (n : Int)) ∧
      ((∀ n, v.ref ≠ .frame n) → v.derived = none)) ∧
    (mode = .atTime → v.derived = v.entry.target) ∧
    (event → v.derived = v.entry.eventFrame.map (fun n => (n : Int))) ∧
    (v.vEff = none ↔
      (mode = .after ∧ ∀ n, v.ref ≠ .frame n) ∨ (mode = .atTime ∧ v.entry.target = none) ∨
      (event ∧ v.entry.eventFrame = none) ∨ ∃ j u, j < i ∧ s.evals[j]? = some u ∧ u.vEff = none)) ∧
  ∀ (s : State) (i : Nat) (v : Eval) (m : Nat), s.evals[i]? = some v → v.vEff = some m →
    s.now + s.horizon ≤ m ∧ (∀ d, v.derived = some d → d ≤ (m : Int) ∧ (v.slip : Int) = min ((m : Int) - d) 65535) ∧
    (∀ f, s.scheduler.lastFrame = some f → i = 0 → f ≤ m) ∧
    (∀ c, s.scheduler.lastScene = some c → SceneEval v →
      (∀ j u, j < i → s.evals[j]? = some u → ¬ SceneEval u) → c.visible < m) ∧
    (∀ j u n, j < i → s.evals[j]? = some u → u.vEff = some n → n ≤ m ∧ (SceneEval u → SceneEval v → n < m)) ∧
    (m = s.now + s.horizon ∨ v.derived = some (m : Int) ∨ (i = 0 ∧ s.scheduler.lastFrame = some m) ∨
      (SceneEval v ∧ ∃ c, s.scheduler.lastScene = some c ∧ m = c.visible + 1) ∨
      (∃ j u, j < i ∧ s.evals[j]? = some u ∧
        (u.vEff = some m ∨ (SceneEval u ∧ SceneEval v ∧ ∃ n, u.vEff = some n ∧ m = n + 1))))

/-! ## Resets and start-up -/

/-- DEVICE_RESET: every block at its device-reset values, the byte write it cuts left erased or done, and show memory
not written (R16, R32, R48, R77, R99, R115, R133, R134, R149, R160, R170, R174, R185). That show memory keeps its
bytes after a power-on too, and a burst granted but not landed whole, that the image copy is unknown and not valid
until loading ends, that accesses waiting at the endpoint are dropped, that pins keep their levels, and that the free
values' count and the commands waiting stay are the model's choices (log entries 40, 42, 43, 44, 18, 3 and 33). -/
def Obligations.DeviceResetClearsThePart : Prop :=
  ∀ (cut : CutByte) (s : State), ∃ t, exec (.deviceReset cut) s = .next t ∧
    t.ftg = { running := false, frame := 0, clock := ⟨0, 0, 0, 0⟩, clockSets := [], latch := 0, trigger := .idle,
              pulse := .idle, alignPending := false, begun := false } ∧
    t.follower = { state := .idle, follow := 0, position := .record, reason := none, fetch := none } ∧
    t.scheduler = { queue := [], anchor := 0, lastScene := none, lastFrame := none } ∧
    t.commit = { showing := [], due := [], levelRequest := none, commitCount := 0, attempt := none, handoff := [],
                 stopFrame := none } ∧
    t.tiles.length = 16 ∧
    (∀ k, k < 16 →
      (t.tile k).switches = [] ∧ (t.tile k).stopAt = none ∧
      (t.tile k).scan.current.plate = none ∧ (t.tile k).scan.current.fill = none ∧
      (t.tile k).scan.current.rIn = 0 ∧ (t.tile k).scan.current.words = 0 ∧ (t.tile k).scan.fade = none ∧
      (t.tile k).scan.street = 16 ∧ (t.tile k).scan.dusk = 16 ∧ (t.tile k).scan.set = .street ∧
      (t.tile k).scan.cue = none ∧
      (t.tile k).engine.active = false ∧ (t.tile k).engine.old = none ∧ (t.tile k).engine.main.words = [] ∧
      (t.tile k).engine.main.fetchRow = 0 ∧ (t.tile k).engine.main.remainder = 0 ∧
      (t.tile k).engine.main.lastPixel = none ∧ (t.tile k).engine.sendRow = 0 ∧ (t.tile k).engine.sendCol = 0 ∧
      (t.tile k).engine.flight = [] ∧ (t.tile k).engine.underruns = 0 ∧
      (t.tile k).link.state = .absent ∧ (t.tile k).link.descriptor = none ∧ (t.tile k).link.timer = 0 ∧
      (t.tile k).link.joinCount = 0 ∧ (t.tile k).link.missRun = 0 ∧ (t.tile k).link.missCount = 0) ∧
    t.arbiter = { urgentPtr := 15, otherPtr := 15 } ∧ t.port.accesses = [] ∧ t.port.backlog = [] ∧
    t.ambient = { polling := false, inFlight := none, history := [], average := none, level := .street, confirm := 0,
                  failures := 0, status := .noReading } ∧
    t.store.state = .loading ∧ t.store.job = none ∧ t.store.result = none ∧ t.store.valid = false ∧
    (∀ p, t.store.image.getD p none = none) ∧ t.profile = none ∧
    (∀ kind p v rest, s.store.job = some ⟨kind, (p, v) :: rest⟩ →
      t.store.eeprom = s.store.eeprom.set p (if cut = .written then v else 0xFF)) ∧
    (s.store.job = none → t.store.eeprom = s.store.eeprom) ∧
    t.report.queue = [] ∧ t.report.holdFaults = [] ∧ t.report.handback = 0 ∧ t.report.tag = 0 ∧ t.report.skipped = 0 ∧
    t.window.adoption = none ∧
    t.window.main = none ∧ t.window.side = none ∧ t.window.arg = 0 ∧ t.window.attn = 0 ∧ t.window.mask = 0 ∧
    t.window.wall = .loading ∧ t.mem = s.mem ∧ t.pins = s.pins ∧ t.freeIndex = s.freeIndex ∧ t.pending = s.pending

/-- An image is valid by the six checks of R163, its profile by the ranges of R167. LOADING_END with a valid image:
its profile and trims are adopted, the wall enters STANDBY, and the frame start of frame 0 is taken, with the first
refresh and, under FORCE_DUSK, the change to DUSK (`FrameZeroTaken`); with an invalid one the wall enters
AWAIT_PROFILE and nothing is adopted (R1, R114, R138, R151, R157, R158, R163 to R167, R182). That the refresh of frame
0 reads the ambient state after the forced change is the model's choice (log entry 38). -/
def Obligations.LoadingEndAdoptsOrAwaits : Prop :=
  (∀ (image : List (Option Byte)) (p : Profile), imageContent image = some p ↔
    ∃ bs : List Byte, image = bs.map some ∧ bs.length = 512 ∧ byteAt bs 0 = 0xA5 ∧ byteAt bs 1 = 1 ∧
      byteAt bs 511 = ((List.range 511).map (byteAt bs)).sum % 256 ∧ (∀ i, i < 32 → byteAt bs (98 + i) ≤ 31) ∧
      FieldsOf ((bs.drop 2).take 96) p ∧ InRange p) ∧
  (∀ (eeprom : List Byte) (unread : List Nat) (i : Nat) (b : Byte), eeprom[i]? = some b →
    (readImage eeprom unread)[i]? = some (if unread.contains i then none else some b)) ∧
  ∀ (unread : List Nat) (s : State), s.window.wall = .loading → s.store.state = .loading →
    (∀ p, imageContent (readImage s.store.eeprom unread) = some p →
      ∃ t, exec (.loadingEnd unread) s = .next t ∧
        t.profile = some p ∧ t.window.wall = .standby ∧ t.store.state = .idle ∧ t.store.valid = true ∧
        t.store.image = readImage s.store.eeprom unread ∧
        FrameZeroTaken p s t ∧ (0 < s.openPlaces → t.report.resultNew = false) ∧
        (∀ k, k < s.tiles.length →
          (t.tile k).scan.street = (imageByte (readImage s.store.eeprom unread) (98 + 2 * k)).toNat ∧
          (t.tile k).scan.dusk = (imageByte (readImage s.store.eeprom unread) (99 + 2 * k)).toNat) ∧
        OnlyIn [.profile, .ftg, .tiles, .ambient, .window, .commit, .report, .store] s t) ∧
    (imageContent (readImage s.store.eeprom unread) = none →
      ∃ t, exec (.loadingEnd unread) s = .next t ∧
        t.window = { s.window with wall := .awaitProfile } ∧
        t.store = { s.store with state := .idle, image := readImage s.store.eeprom unread, valid := false } ∧
        OnlyIn [.window, .store] s t)

/-- ADOPT_PROFILE taken in AWAIT_PROFILE: a bad address ends it with REFUSED_INVALID; a good one leaves it BUSY behind
the BAR1 accesses received before it, with its own copy of ARG (R168, R175, R176). PROFILE_RECORD_READ_ISSUE then
presents the read once those have been carried, and before that, or with no read waiting, changes nothing. That
accesses waiting at the endpoint count as received is the model's choice (log entry 19). -/
def Obligations.AdoptProfileWaitsToRead : Prop :=
  (∀ (persist : Bool) (s : State), s.window.wall = .awaitProfile → s.window.busy = false →
    ∃ t, exec (.adoptProfile persist) s = .next t ∧ OnlyIn [.window] s t ∧
      (¬ GoodAddress s.window.arg.toNat →
        t.window = { s.window with main := some ⟨1, .refusedInvalid⟩, side := none }) ∧
      (GoodAddress s.window.arg.toNat →
        t.window = { s.window with
          main := some ⟨1, .busy⟩, side := none,
          adoption := some ⟨persist, s.window.arg, .behindHost (s.port.accesses.length + s.port.backlog.length)⟩ })) ∧
  (∀ (a : Adoption) (s : State), s.window.adoption = some a → a.phase = .behindHost 0 →
    ∃ t, exec .profileRecordReadIssue s = .next t ∧ OnlyIn [.window] s t ∧
      t.window = { s.window with adoption := some { a with phase := .presented } }) ∧
  ∀ s : State, (∀ a, s.window.adoption = some a → a.phase ≠ .behindHost 0) →
    exec .profileRecordReadIssue s = .next s

/-- PROFILE_RECORD_READ_DONE: a record that is not whole, has a wrong marker or an invalid field ends the command with
REFUSED_INVALID and nothing adopted; a valid one is adopted, the frame start of frame 0 is taken, with the first
refresh and, under FORCE_DUSK, the change to DUSK (`FrameZeroTaken`), and the result becomes ACCEPTED, or with persist
the profile write of R169 is placed in the job slot: the whole new content, written by the four steps of R171 (R157,
R158, R165, R167 to R169, R171, R182). That a record running past 0x2000_0000 is refused here, after the bytes that
remain have been read, that the refresh of frame 0 reads the ambient state after the forced change, that the content
takes the profile block of section 12.3 byte for byte, its unnamed bytes included, and that a profile write with no
changed byte ends DONE at once are the model's readings (log entries 47, 38, 17 and 31). -/
def Obligations.ProfileRecordIsJudged : Prop :=
  (∀ (r : List Byte) (p : Profile), profileOfRecord r = some p ↔
    104 ≤ r.length ∧ leAt r 0 2 = 0x5AD1 ∧ FieldsOf ((r.drop 8).take 96) p ∧ InRange p) ∧
  (∀ (image : List (Option Byte)) (p : Profile) (tiles : List Tile), image.length = 512 → p.block.length = 96 →
    tiles.length = 16 →
    let c := profileContent image p tiles
    c.length = 512 ∧ byteAt c 0 = 0xA5 ∧ byteAt c 1 = 1 ∧ (∀ i, i < 96 → c.getD (2 + i) 0 = p.block.getD i 0) ∧
    (∀ k tile, tiles[k]? = some tile → c.getD (98 + 2 * k) 0 = BitVec.ofNat 8 tile.scan.street ∧
      c.getD (99 + 2 * k) 0 = BitVec.ofNat 8 tile.scan.dusk) ∧
    ∀ i, 130 ≤ i → i ≤ 510 → c.getD i 0 = (image.getD i none).getD 0) ∧
  (∀ (image : List (Option Byte)) (c : List Byte),
    let changed (p : Nat) : Prop := 1 ≤ p ∧ p ≤ 510 ∧ image.getD p none ≠ some (c.getD p 0)
    ((∀ p, ¬ changed p) → contentWrites image c = []) ∧
    ((∃ p, changed p) → ∃ (ps : List Nat) (check : Byte),
      contentWrites image c = (0, 0) :: ps.map (fun p => (p, c.getD p 0)) ++ [(511, check), (0, 0xA5)] ∧
      ps.Pairwise (· < ·) ∧ (∀ p, p ∈ ps ↔ changed p) ∧
      check.toNat = (0xA5 + ((List.range 510).map (fun i => byteAt c (1 + i))).sum) % 256)) ∧
  ∀ (a : Adoption) (r : List Byte) (s : State), s.window.adoption = some a → a.phase = .granted r →
    s.window.main = some ⟨1, .busy⟩ →
    ∃ t, exec .profileRecordReadDone s = .next t ∧ t.window.adoption = none ∧
      (profileOfRecord r = none →
        t.window = { s.window with adoption := none, main := some ⟨1, .refusedInvalid⟩ } ∧ OnlyIn [.window] s t) ∧
      (∀ p, profileOfRecord r = some p →
        t.profile = some p ∧ t.window.wall = .standby ∧ FrameZeroTaken p s t ∧
        (∀ k, (t.tile k).scan.street = (s.tile k).scan.street ∧ (t.tile k).scan.dusk = (s.tile k).scan.dusk) ∧
        (a.persist = false → t.window.main = some ⟨1, .accepted⟩ ∧ t.store = s.store ∧
          (0 < s.openPlaces → t.report.resultNew = false)) ∧
        (a.persist = true →
          let w := contentWrites s.store.image (profileContent s.store.image p s.tiles)
          (w ≠ [] → t.window.main = some ⟨1, .busy⟩ ∧ t.store.job = some ⟨.profile, w⟩ ∧ t.store.state = .writing) ∧
          (w = [] → t.window.main = some ⟨1, .done⟩ ∧ t.store.job = none ∧ t.report.resultNew = true)) ∧
        OnlyIn [.profile, .ftg, .tiles, .ambient, .window, .commit, .report, .store] s t)

/-! ## Commands -/

/-- START taken in STANDBY: SHOWING, the anchor in the present frame, and following from ARG; a bad address holds with
reason ADDRESS, and its fault record carries the halves of ARG (R34, R57, R178, R188). -/
def Obligations.StartBeginsTheShowing : Prop :=
  ∀ s : State, s.window.wall = .standby → s.window.busy = false →
    ∃ t, exec .start s = .next t ∧
      t.window = { s.window with main := some ⟨2, .accepted⟩, side := none, wall := .showing } ∧
      t.scheduler = { s.scheduler with anchor := s.now, lastScene := none, lastFrame := none } ∧
      OnlyIn [.window, .scheduler, .follower, .report] s t ∧
      (GoodAddress s.window.arg.toNat →
        t.follower = { s.follower with
          state := .fetching, follow := s.window.arg.toNat, reason := none, fetch := none } ∧
        t.report = s.report) ∧
      (¬ GoodAddress s.window.arg.toNat →
        t.follower = { state := .hold, follow := s.window.arg.toNat, position := .record, reason := some .address,
                       fetch := none } ∧
        HandedFault { kind := .address, hold := true, address := s.window.arg.extractLsb' 0 32, frame := s.now,
                      detail := s.window.arg >>> 32 } s t)

/-- REDIRECT taken in SHOWING: the fetch and any undecided attempt are abandoned, every entry not already departing is
withdrawn, committed cues stand, and following goes on from ARG with a new anchor, or holds with reason ADDRESS and
its fault record where ARG is bad (R46, R57, R75, R80). That a good ARG leaves the hold position as it was is the
model's reading (log entry 29). -/
def Obligations.RedirectWithdrawsAndFollows : Prop :=
  ∀ s : State, LookAheadInv s → s.window.wall = .showing → s.window.busy = false →
    ∃ t, exec .redirect s = .next t ∧ t.window = { s.window with main := some ⟨3, .accepted⟩, side := none } ∧
      t.commit = { s.commit with attempt := none } ∧ t.scheduler.anchor = s.now ∧ t.scheduler.lastScene = none ∧
      t.scheduler.lastFrame = none ∧ (∀ e ∈ t.scheduler.queue, e.departing.isSome = true) ∧
      (∀ e ∈ s.scheduler.queue, Departed e.cue.record (e.departing.getD .withdrawn) t) ∧
      (GoodAddress s.window.arg.toNat → t.follower = { s.follower with
        state := .fetching, follow := s.window.arg.toNat, reason := none, fetch := none }) ∧
      (¬ GoodAddress s.window.arg.toNat →
        t.follower = { state := .hold, follow := s.window.arg.toNat, position := .record, reason := some .address,
                       fetch := none } ∧
        ∃ s' : State, s'.report.holdFaults = s.report.holdFaults ∧
          HandedFault { kind := .address, hold := true, address := s.window.arg.extractLsb' 0 32, frame := s.now,
                        detail := s.window.arg >>> 32 } s' t) ∧
      OnlyIn [.window, .follower, .commit, .scheduler, .report] s t

/-- RESUME taken with the follower in HOLD: it clears the hold reason and acts by the hold position (R45). -/
def Obligations.ResumeLeavesTheHold : Prop :=
  ∀ s : State, s.window.wall = .showing → s.follower.state = .hold → s.window.busy = false →
    ∃ t, exec .resume s = .next t ∧ t.window.main = some ⟨4, .accepted⟩ ∧ t.window.side = none ∧
      t.window.wall = .showing ∧ OnlyIn [.window, .follower, .report] s t ∧
      (s.follower.position = .link →
        t.follower = { s.follower with state := .awaitLink, reason := none, fetch := none } ∧
        (s.scheduler.queue = [] → t.flag .dry = true)) ∧
      (s.follower.position = .record → s.follower.reason ≠ some .address →
        t.follower = { s.follower with state := .fetching, reason := none, fetch := none }) ∧
      (s.follower.position = .record → s.follower.reason = some .address → GoodAddress s.follower.follow →
        t.follower = { s.follower with state := .fetching, reason := none, fetch := none }) ∧
      (s.follower.position = .record → s.follower.reason = some .address → ¬ GoodAddress s.follower.follow →
        t.follower = { s.follower with fetch := none } ∧
        HandedFault { kind := .address, hold := true, address := BitVec.ofNat 32 s.follower.follow, frame := s.now,
                      detail := BitVec.ofNat 64 (s.follower.follow / 2 ^ 32) } s t)

/-- STOP taken in SHOWING: every entry not already departing is withdrawn with its WITHDRAWN write, following ends,
the stop frame is the greater of now + H and one more than the greatest V of the showing table, and each tile of the
profile has its stop switch at Vs − L_k or Vs − Lmax (R47, R73, R76, R96). At the frame start of the stop frame the
stop is complete: STANDBY, and STOP's result goes from BUSY to DONE (R97). The follower keeps its hold position by the
model's reading (log entry 29). -/
def Obligations.StopPlacesTheStopFrame : Prop :=
  (∀ s : State, s.window.wall = .showing → s.window.busy = false →
    ∃ t vs, exec .stop s = .next t ∧ t.commit = { s.commit with attempt := none, stopFrame := some vs } ∧
      t.window = { s.window with main := some ⟨5, .busy⟩, side := none, wall := .stopping } ∧
      s.now + s.horizon ≤ vs ∧ (∀ e ∈ s.commit.showing, e.visible < vs) ∧
      (vs = s.now + s.horizon ∨ ∃ e ∈ s.commit.showing, vs = e.visible + 1) ∧
      t.follower = { s.follower with state := .idle, reason := none, fetch := none } ∧
      (∀ e ∈ t.scheduler.queue, e.departing.isSome = true) ∧
      (LookAheadInv s → ∀ e ∈ s.scheduler.queue, Departed e.cue.record (e.departing.getD .withdrawn) t) ∧
      t.scheduler.anchor = s.scheduler.anchor ∧
      t.scheduler.lastScene = s.scheduler.lastScene ∧ t.scheduler.lastFrame = s.scheduler.lastFrame ∧
      t.tiles.length = s.tiles.length ∧
      (∀ k, k < s.tiles.length →
        t.tile k = if k < s.prof.tiles
          then { s.tile k with stopAt := some (vs - ((s.tile k).link.latency.getD s.prof.lmax)) } else s.tile k) ∧
      OnlyIn [.window, .follower, .commit, .scheduler, .report, .tiles] s t) ∧
  ∀ s : State, s.ftg.running = true → s.ftg.begun = false → s.commit.stopFrame = some (s.now + 1) →
    ∃ t, exec .frameStart s = .next t ∧ t.window.wall = .standby ∧ t.commit.stopFrame = none ∧
      (s.window.main = some ⟨5, .busy⟩ → t.window.main = some ⟨5, .done⟩)

/-- WALL_RESET taken: the showing of the wall is cleared with no outcome write, the wall enters STANDBY, and every
tile of the profile gets one level switch of the Ambient Unit's set; links, scan contexts, clock, profile and reports
are kept (R17, R47, R77, R98, R158, R179). That waiting fault records of holds are kept too is the model's reading
(log entry 28). -/
def Obligations.WallResetClearsTheShowing : Prop :=
  ∀ s : State, (s.window.wall = .standby ∨ s.window.wall = .showing ∨ s.window.wall = .stopping) →
    ∃ t, exec .wallReset s = .next t ∧
      t.window = { s.window with
        main := if s.window.busy = true ∧ s.window.stopBusy = false then s.window.main else some ⟨6, .accepted⟩,
        side := if s.window.busy = true ∧ s.window.stopBusy = false then some ⟨6, .accepted⟩ else none,
        wall := .standby, resetTaken := true } ∧
      t.follower = { s.follower with state := .idle, position := .record, reason := none, fetch := none } ∧
      t.scheduler = { s.scheduler with queue := [], lastScene := none, lastFrame := none } ∧
      t.ftg = { s.ftg with clockSets := [] } ∧ t.commit.showing = [] ∧ t.commit.due = [] ∧ t.commit.attempt = none ∧
      t.commit.stopFrame = none ∧ t.commit.handoff = s.commit.handoff ∧ t.commit.levelRequest = none ∧
      t.tiles.length = s.tiles.length ∧
      (∀ k, k < s.tiles.length →
        t.tile k = { s.tile k with
          stopAt := none,
          switches := if k < s.prof.tiles
            then [⟨s.now + s.horizon - ((s.tile k).link.latency.getD s.prof.lmax), .level s.ambient.level⟩] else [] }) ∧
      OnlyIn [.window, .follower, .scheduler, .ftg, .commit, .tiles] s t

/-- INVALIDATE_STORE taken in STANDBY with the job slot empty: one byte write of the marker to 0 is in the slot and
the result is BUSY (R173). -/
def Obligations.InvalidateStoreWritesTheMarker : Prop :=
  ∀ s : State, s.window.wall = .standby → s.window.busy = false → s.store.job = none →
    ∃ t, exec .invalidateStore s = .next t ∧ t.window = { s.window with main := some ⟨7, .busy⟩, side := none } ∧
      t.store = { s.store with job := some ⟨.invalidate, [(0, 0)]⟩, state := .writing } ∧ OnlyIn [.window, .store] s t

/-- A refused command changes nothing beyond the CMD record it is written into, and the refusals come in the order of
R177: LOADING, a locked profile, the wall state, a busy command, and for INVALIDATE_STORE a job in the slot. A second
ADOPT_PROFILE written in AWAIT_PROFILE while one is busy is so refused with REFUSED_BUSY (R168). -/
def Obligations.RefusedCommandsChangeNothing : Prop :=
  ∀ (i : Instr) (c : Command) (s : State), commandOf i = some c →
    (∀ r, judge c s = some r → ∃ t, exec i s = .next t ∧ OnlyIn [.window] s t ∧
      t.window = if s.window.busy then { s.window with side := some ⟨c.code, r⟩ }
        else { s.window with main := some ⟨c.code, r⟩, side := none }) ∧
    (s.window.wall = .loading → judge c s = some .refusedState) ∧
    (c = .adoptProfile → s.window.wall ≠ .loading → s.window.wall ≠ .awaitProfile → judge c s = some .refusedLocked) ∧
    (s.window.wall = .awaitProfile → c ≠ .adoptProfile → judge c s = some .refusedState) ∧
    (s.window.wall = .standby → (c = .redirect ∨ c = .resume ∨ c = .stop) → judge c s = some .refusedState) ∧
    (s.window.wall = .showing → (c = .start ∨ c = .invalidateStore) → judge c s = some .refusedState) ∧
    (s.window.wall = .showing → c = .resume → s.follower.state ≠ .hold → judge c s = some .refusedState) ∧
    (s.window.wall = .stopping → c ≠ .adoptProfile → c ≠ .wallReset → judge c s = some .refusedState) ∧
    (s.window.wall = .awaitProfile → c = .adoptProfile → s.window.busy = true → judge c s = some .refusedBusy) ∧
    (s.window.wall = .showing → (c = .redirect ∨ c = .stop ∨ (c = .resume ∧ s.follower.state = .hold)) →
      s.window.busy = true → judge c s = some .refusedBusy) ∧
    (s.window.wall = .standby → (c = .start ∨ c = .invalidateStore) → s.window.busy = true →
      judge c s = some .refusedBusy) ∧
    (s.window.wall = .standby → c = .invalidateStore → s.store.job.isSome = true → judge c s = some .refusedBusy)

/-- A CMD write whose code names no command is refused with REFUSED_INVALID in every wall state, written into the side
record when a command is busy and into the main record otherwise, and changes no other state; a record of NONE reads
as code 0 and result 0; bits 9..31 of a write to CMD, ATTN or ATTN_MASK are ignored and those of ATTN and ATTN_MASK
read 0 (R189). -/
def Obligations.InvalidCodesAreRefused : Prop :=
  (∀ (code : BitVec 8) (s : State), namesCommand code = false →
    ∃ t, exec (.cmdInvalidCode code) s = .next t ∧ OnlyIn [.window] s t ∧
      t.window = if s.window.busy then { s.window with side := some ⟨code, .refusedInvalid⟩ }
        else { s.window with main := some ⟨code, .refusedInvalid⟩, side := none }) ∧
  (∀ s : State, (s.window.main = none → (s.readRegister 0x00).extractLsb' 0 12 = 0) ∧
    (s.window.side = none → (s.readRegister 0x00).extractLsb' 16 12 = 0)) ∧
  (∀ (w v : BitVec 32) (s : State), w.extractLsb' 0 9 = v.extractLsb' 0 9 →
    decodeCmdWrite w = decodeCmdWrite v ∧ exec (.attnWrite w) s = exec (.attnWrite v) s ∧
    exec (.attnMaskWrite w) s = exec (.attnMaskWrite v) s) ∧
  (∀ s : State, (s.readRegister 0x10).toNat < 2 ^ 9 ∧ (s.readRegister 0x14).toNat < 2 ^ 9)

/-! ## The other registers and the host window -/

/-- A write to ATTN clears each flag whose bit is 1 and leaves the others; a write to ATTN_MASK replaces the mask; a
change of message signalling changes neither (R180, R181). The signalling bit as state is the model's (log entry 4).
-/
def Obligations.AttentionRegistersTakeWrites : Prop :=
  (∀ (v : BitVec 32) (s : State), ∃ t, exec (.attnWrite v) s = .next t ∧ OnlyIn [.window] s t ∧
    t.window = { s.window with attn := t.window.attn } ∧
    ∀ i, i < 9 → t.window.attn.getLsbD i = (s.window.attn.getLsbD i && !v.getLsbD i)) ∧
  (∀ (v : BitVec 32) (s : State), ∃ t, exec (.attnMaskWrite v) s = .next t ∧ OnlyIn [.window] s t ∧
    t.window = { s.window with mask := v.extractLsb' 0 9, messages := t.window.messages }) ∧
  (∀ (b : Bool) (s : State), ∃ t, exec (.messageSignallingChange b) s = .next t ∧ OnlyIn [.window] s t ∧
    t.window = { s.window with signalling := b })

/-- A read of FRAME_LO returns bits 0..31 of the frame number and latches bits 32..47 of that same number, which
FRAME_HI then returns; a write changes ARG in the half or halves it covers and nothing else; a write to FRAME_LO,
FRAME_HI or an empty offset changes nothing (R8, R9, R175). -/
def Obligations.FrameAndArgRegisters : Prop :=
  (∀ s : State, s.now < 2 ^ 48 → ∃ t, exec .frameLoRead s = .next t ∧ OnlyIn [.window, .ftg] s t ∧
    t.window = { s.window with readData := t.window.readData } ∧ t.ftg = { s.ftg with latch := t.ftg.latch } ∧
    (t.readRegister 0x1C).toNat * 2 ^ 32 + t.window.readData.toNat = s.now) ∧
  (∀ (target : RegisterTarget) (v : BitVec 64) (s : State), ∃ t, exec (.registerWrite target v) s = .next t ∧
    OnlyIn [.window] s t ∧ t.window = { s.window with arg := t.window.arg } ∧
    t.readRegister 0x08 = (if target = .argLow ∨ target = .argWhole then v.extractLsb' 0 32 else s.readRegister 0x08) ∧
    t.readRegister 0x0C = (if target = .argHigh then v.extractLsb' 0 32 else if target = .argWhole
      then v.extractLsb' 32 32 else s.readRegister 0x0C))

/-- A BAR1 access is taken into the port behind those it holds, or waits at the endpoint while the port holds 8; it is
split so that each part lies in one aligned block of 128 bytes, in ascending order and leaving nothing out. An access,
read or write, outside the window faults; one that is not of 1 to 128 bytes is refused (R130). The waiting at the
endpoint, the fault and the refusal are the model's choices (log entries 19 and 21). -/
def Obligations.HostAccessEntersThePort : Prop :=
  (∀ (a : WindowAccess) (s : State), a.wf = true → ∃ t, exec (.hostWindowAccess a) s = .next t ∧ OnlyIn [.port] s t ∧
    t.port.readData = s.port.readData ∧
    (s.port.accesses.length < 8 → s.port.backlog = [] →
      t.port.accesses = s.port.accesses ++ [⟨splitAccess a, []⟩] ∧ t.port.backlog = []) ∧
    (8 ≤ s.port.accesses.length ∨ s.port.backlog ≠ [] →
      t.port.accesses = s.port.accesses ∧ t.port.backlog = s.port.backlog ++ [a])) ∧
  (∀ a d, (WindowAccess.write a d).wf = true →
    (d.length ≤ 128 - a % 128 → splitAccess (.write a d) = [.write a d]) ∧
    (128 - a % 128 < d.length → splitAccess (.write a d) =
      [.write a (d.take (128 - a % 128)), .write (a + (128 - a % 128)) (d.drop (128 - a % 128))]) ∧
    (∀ p ∈ splitAccess (.write a d), ∃ b e, p = .write b e ∧ e ≠ [] ∧ b / 128 = (b + e.length - 1) / 128) ∧
    ∀ (m : List Host.Cell) (x : Nat), Memory.wf m = true →
      Memory.read ((splitAccess (.write a d)).foldl (fun m p => (p.perform m).2) m) x =
        if a ≤ x ∧ x < a + d.length then d.getD (x - a) 0 else Memory.read m x) ∧
  (∀ a n, (WindowAccess.read a n).wf = true →
    (n ≤ 128 - a % 128 → splitAccess (.read a n) = [.read a n]) ∧
    (128 - a % 128 < n → splitAccess (.read a n) =
      [.read a (128 - a % 128), .read (a + (128 - a % 128)) (n - (128 - a % 128))]) ∧
    (∀ p ∈ splitAccess (.read a n), ∃ b k, p = .read b k ∧ 0 < k ∧ b / 128 = (b + k - 1) / 128) ∧
    ∀ m : List Host.Cell, ((splitAccess (.read a n)).map (fun p => (p.perform m).1)).flatten = Memory.readBytes m a n) ∧
  (∀ a n s, 1 ≤ n → n ≤ 128 → 0x20000000 < a + n →
    exec (.hostWindowAccess (.read a n)) s = .fault .outsideShowMemory) ∧
  (∀ a n s, n = 0 ∨ 128 < n → exec (.hostWindowAccess (.read a n)) s = .refused .malformedAccess) ∧
  (∀ a d s, 1 ≤ d.length → d.length ≤ 128 → 0x20000000 < a + d.length →
    exec (.hostWindowAccess (.write a d)) s = .fault .outsideShowMemory) ∧
  (∀ a d s, d = [] ∨ 128 < d.length → exec (.hostWindowAccess (.write a d)) s = .refused .malformedAccess)

/-! ## Grants -/

/-- While an engine is urgent, the first urgent engine after the urgent pointer is granted: the next words of the lane
it offers are read from show memory and in flight, at the row's end the fetch row advances, and the urgent pointer
moves to it; nobody else is served. An engine waits while a lane has a request ready, urgently when the lane it offers
holds fewer than 128 words (R122, R123, R129). That a burst acts on show memory at its grant is the model's choice
(log entry 14). -/
def Obligations.UrgentEngineIsGrantedFirst : Prop :=
  (∀ (s : State) (k : Nat), FirstAfter s.arbiter.urgentPtr k true s → k < s.tiles.length →
    ∃ t, exec .grantDecision s = .next t ∧ t.arbiter = { s.arbiter with urgentPtr := k } ∧
      OtherTilesKept k s t ∧ OnlyIn [.tiles, .arbiter] s t ∧ EngineGranted k s t) ∧
  ∀ (e : Engine) (urgent : Bool),
    e.waiting urgent = true ↔ ∃ id, Offers e id ∧ (urgent = true ↔ (e.lane id).words.length < 128)

/-- With no urgent engine waiting, the oldest BAR1 access is served: a write burst changes the bytes the host wrote
and no others, a read burst gathers the bytes as they stand, and the next access waits until every burst of the oldest
is granted; an ADOPT_PROFILE behind the access carried has one fewer to wait for (R129, R130, R168). The read data
collected, the accesses waiting at the endpoint and the time of the effect are the model's choices (log entries 14, 19
and 20). -/
def Obligations.HostBurstIsGrantedNext : Prop :=
  ∀ (s : State) (x : PortAccess) (rest : List PortAccess) (p : AccessPart) (more : List AccessPart),
    (∀ k, k < 16 → (s.tile k).engine.waiting true = false) → s.port.accesses = x :: rest → x.parts = p :: more →
    Memory.wf s.mem = true →
    ∃ t, exec .grantDecision s = .next t ∧ OnlyIn [.mem, .port, .window] s t ∧
      (∀ a d, p = .write a d → ∀ y, Memory.read t.mem y =
        if a ≤ y ∧ y < a + d.length then d.getD (y - a) 0 else Memory.read s.mem y) ∧
      (∀ a n, p = .read a n → t.mem = s.mem) ∧
      (more ≠ [] → t.port.backlog = s.port.backlog ∧ t.port.readData = s.port.readData ∧
        (∀ a d, p = .write a d → t.port.accesses = ⟨more, x.got⟩ :: rest) ∧
        (∀ a n, p = .read a n → t.port.accesses = ⟨more, x.got ++ Memory.readBytes s.mem a n⟩ :: rest)) ∧
      (more = [] → s.port.backlog = [] → t.port.accesses = rest) ∧
      (more = [] → ∀ b waiting, s.port.backlog = b :: waiting →
        t.port.accesses = rest ++ [⟨splitAccess b, []⟩] ∧ t.port.backlog = waiting) ∧
      (∀ a n, more = [] → p = .read a n → 0 < n → t.port.readData = x.got ++ Memory.readBytes s.mem a n) ∧
      (∀ w n, more = [] → s.window.adoption = some w → w.phase = .behindHost n →
        t.window = { s.window with adoption := some { w with phase := .behindHost (n - 1) } }) ∧
      ((more ≠ [] ∨ ∀ w n, s.window.adoption = some w → w.phase ≠ .behindHost n) → t.window = s.window)

/-- The Report Writer presents the first write not wholly granted, a refresh at the head of its queue alone, a fault
record once no fault record stands before it and RELEASED once no fade holds a snapshot of its cue, and otherwise
none: when RELEASED is written, no tile's scan context holds a snapshot of the cue's record in a fade. With neither an urgent engine nor the host
waiting, the Report Writer's next outcome write is performed whole: it writes the bytes of the fields its kind sets,
as the table of R187 lists them, and no others; a SHOWN write raises the pass count by 1, modulo 2^32 (R24, R50 to
R52, R93, R129, R131, R182, R184, R187). The order of presenting, the wait of RELEASED and of what stands behind it, the
time of the effect, the flag bytes' unnamed bits as 0, and bytes 46 and 47 of a QUEUED write as 0, are the model's (log
entries 14, 39, 46 and 49). -/
def Obligations.OutcomeWriteIsPerformedWhole : Prop :=
  (∀ (s : State) (i : Nat), s.reportRequest = some i ↔ Presents s i) ∧
  (∀ s : State, s.reportRequest = none ↔ ∀ i, ¬ Presents s i) ∧
  (∀ (s t : State) (i record : Nat), exec .grantDecision s = .next t →
    s.report.queue[i]? = some (.outcome ⟨record, .released⟩ false) →
    t.report.queue[i]? = some (.outcome ⟨record, .released⟩ true) → ¬ FadesFrom record s ∧ ¬ FadesFrom record t) ∧
  ∀ (s : State) (i : Nat) (w : OutcomeWrite),
    (∀ k, k < 16 → (s.tile k).engine.waiting true = false) → s.port.accesses = [] →
    s.reportRequest = some i → s.report.queue[i]? = some (.outcome w false) → Memory.wf s.mem = true →
    ∃ t, exec .grantDecision s = .next t ∧ OnlyIn [.mem, .report] s t ∧
      t.report = { s.report with queue := s.report.queue.set i (.outcome w true) } ∧
      let bytes (offset n : Nat) : List Byte := Memory.readBytes t.mem (w.record + offset) n
      let kept (offset n : Nat) : Prop := bytes offset n = Memory.readBytes s.mem (w.record + offset) n
      let late (l p : Bool) : Byte := (if l then 1 else 0) + (if p then 2 else 0)
      (∀ a, a < w.record + 40 ∨ w.record + 64 ≤ a → Memory.read t.mem a = Memory.read s.mem a) ∧
      kept 60 4 ∧
      (match w.kind with
        | .queued => bytes 40 16 = 1 :: List.replicate 15 0 ∧ kept 56 4
        | .committed v slip l =>
          bytes 40 1 = [2] ∧ kept 41 1 ∧ bytes 42 1 = [late l false] ∧ kept 43 1 ∧ bytes 44 2 = leBytes 2 slip ∧
          kept 46 2 ∧ bytes 48 8 = leBytes 6 v ++ [0, 0] ∧ kept 56 4
        | .sceneShown degraded clipped exceeds =>
          bytes 40 1 = [3] ∧ kept 41 2 ∧
          bytes 43 1 = [(if degraded then 1 else 0) + (if clipped then 2 else 0) + (if exceeds then 4 else 0)] ∧
          kept 44 12
        | .keepShown v slip l p =>
          bytes 40 1 = [3] ∧ kept 41 1 ∧ bytes 42 1 = [late l p] ∧ kept 43 1 ∧ bytes 44 2 = leBytes 2 slip ∧
          kept 46 2 ∧ bytes 48 8 = leBytes 6 v ++ [0, 0]
        | .done v slip l p =>
          bytes 40 1 = [5] ∧ kept 41 1 ∧ bytes 42 1 = [late l p] ∧ kept 43 1 ∧ bytes 44 2 = leBytes 2 slip ∧
          kept 46 2 ∧ bytes 48 8 = leBytes 6 v ++ [0, 0] ∧ kept 56 4
        | .skipped reason slip =>
          bytes 40 2 = [6, (match reason with | .notReady => 1 | .noTrigger => 2)] ∧ kept 42 2 ∧
          bytes 44 2 = leBytes 2 slip ∧ kept 46 14
        | .refused reason =>
          bytes 40 2 = [7, (match reason with
            | .badTime => 3 | .dupTile => 4 | .badTile => 5 | .badPlate => 6 | .badKind => 7)] ∧ kept 42 18
        | .released => bytes 40 1 = [4] ∧ kept 41 19
        | .withdrawn => bytes 40 1 = [8] ∧ kept 41 19) ∧
      (w.kind.code = 3 → passCountAt t.mem w.record = (passCountAt s.mem w.record + 1) % 2 ^ 32)

/-- With no earlier place waiting, a refresh at the head of the write queue performs its bursts in page order, each of
one whole block of the page and never of block 1, with the fields of section 12.4 and zeros elsewhere; a fault record
is performed inside bytes 128..151 with SUPERSEDED as the FAULT flag then stands (R182, R183, R184, R188). A frame
start takes its refresh when the write queue has a free place then, with the values of the part as that frame start
leaves them, the follower's state as it is before the run of attempts, and otherwise counts it skipped (R182). That a
burst acts at its grant, in the order presented, that bytes 130 and 131 stay, that the unnamed bits of byte 129 and
bytes 142 and 143 are 0, that a follow address of 2^32 or more gives its low 32 bits, which places count as free, and
where in a frame start the values are read are the model's choices (log entries 14, 36, 45, 12, 15 and 8). -/
def Obligations.PageWritesStayInTheirBlocks : Prop :=
  (∀ (s : State) (i : Nat),
    (∀ k, k < 16 → (s.tile k).engine.waiting true = false) → s.port.accesses = [] →
    s.reportRequest = some i → Memory.wf s.mem = true →
    let page := s.prof.statusPage
    (∀ f, s.report.queue[i]? = some (.fault f false) →
      ∃ t, exec .grantDecision s = .next t ∧ OnlyIn [.mem, .report] s t ∧
        t.report = { s.report with queue := s.report.queue.set i (.fault f true) } ∧
        (∀ a, a < page + 128 ∨ page + 152 ≤ a ∨ a = page + 130 ∨ a = page + 131 →
          Memory.read t.mem a = Memory.read s.mem a) ∧
        Memory.readBytes t.mem (page + 128) 2 = [(match f.kind with
          | .address => 1 | .marker => 2 | .count => 3 | .length => 4 | .link => 5 | .stale => 6 | .badKind => 17
          | .badTime => 18 | .badTile => 19 | .dupTile => 20 | .badPlate => 21), if s.flag .fault then 1 else 0] ∧
        Memory.readBytes t.mem (page + 132) 20 =
          leBytes 4 f.address.toNat ++ leBytes 6 f.frame ++ [0, 0] ++ leBytes 8 f.detail.toNat) ∧
    (∀ g n a b, s.report.queue[i]? = some (.refresh g n a b) → n < 6 → g.tiles.length = 16 →
      ∃ t, exec .grantDecision s = .next t ∧ OnlyIn [.mem, .report] s t ∧
        t.report = { s.report with queue := s.report.queue.set i (.refresh g (n + 1) a b) } ∧
        let base := page + 128 * (if n = 0 then 0 else n + 1)
        (∀ x, x < base ∨ base + 128 ≤ x → Memory.read t.mem x = Memory.read s.mem x) ∧
        (n = 0 → Memory.readBytes t.mem base 128 =
          leBytes 6 g.frame ++ [0, 0, BitVec.ofNat 8 g.wall.code, BitVec.ofNat 8 g.follower.code, 0, 0] ++
          leBytes 4 g.follow ++ leBytes 6 g.frame ++ ([0, 0] : List Byte) ++
          [g.clock.hours, g.clock.minutes, g.clock.seconds, g.clock.frame].map (BitVec.ofNat 8) ++
          leBytes 2 g.average ++ [BitVec.ofNat 8 g.level.code, BitVec.ofNat 8 g.sensor.code] ++
          leBytes 4 g.handback.toNat ++ leBytes 4 g.tag.toNat ++
          ([(match g.result with
            | none => 0 | some (.trim, _) => 1 | some (.profile, _) => 2 | some (.invalidate, _) => 3),
           (match g.result with | none => 0 | some (_, .done) => 1 | some (_, .failed) => 2 | some (_, .noImage) => 3),
           0, 0] : List Byte) ++ leBytes 4 g.skipped.toNat ++ List.replicate 80 0) ∧
        (∀ j r, 1 ≤ n → n ≤ 4 → j < 4 → g.tiles[4 * (n - 1) + j]? = some r →
          Memory.readBytes t.mem (base + 32 * j) 32 =
            [BitVec.ofNat 8 r.link.code, BitVec.ofNat 8 r.set.code] ++
            (match r.descriptor with
              | none => List.replicate 8 0
              | some d => [BitVec.ofNat 8 d.latency, 0] ++ leBytes 2 d.width ++ leBytes 2 d.height ++
                  leBytes 2 d.model.toNat) ++
            leBytes 2 r.missCount ++ leBytes 2 r.underruns ++ ([0, 0] : List Byte) ++
            leBytes 4 (match r.cue with | none => 0 | some record => record) ++ ([0, 0, 0, 0] : List Byte) ++
            (match r.dwellEnd with
              | none => List.replicate 8 (0xFF : Byte)
              | some d => leBytes 6 d ++ [0, 0])) ∧
        (n = 5 → Memory.readBytes t.mem base 128 = leBytes 6 g.frame ++ List.replicate 122 (0 : Byte)))) ∧
  ([WallState.loading, .awaitProfile, .standby, .showing, .stopping].map (·.code) = [0, 1, 2, 3, 4] ∧
    [FollowState.idle, .fetching, .full, .waitReuse, .awaitLink, .hold].map (·.code) = [0, 1, 2, 3, 4, 5] ∧
    [LinkState.absent, .training, .misfit, .joining, .inStep, .lost].map (·.code) = [0, 1, 2, 3, 4, 5] ∧
    [LevelSet.street, .dusk].map (·.code) = [0, 1] ∧ [SensorStatus.noReading, .good, .fault].map (·.code) = [0, 1, 2]) ∧
  ∀ s : State, s.ftg.running = true → s.ftg.begun = false → ∃ t, exec .frameStart s = .next t ∧
    let u := untilRefresh s
    (u.openPlaces = 0 → t.report.skipped = s.report.skipped + 1 ∧ t.report.queue = u.report.queue ∧
      t.report.tagNew = u.report.tagNew ∧ t.report.resultNew = u.report.resultNew) ∧
    (0 < u.openPlaces → ∃ g,
      t.report.queue = u.report.queue ++ [.refresh g 0 u.report.tagNew u.report.resultNew] ∧
      t.report.skipped = s.report.skipped ∧ t.report.tagNew = false ∧ t.report.resultNew = false ∧
      PageHolds g t ∧ g.follower = u.follower.state ∧ g.result = t.store.result)

/-- At the shared place a plate-table read goes before the Chain Follower's request, whether for a record, a link word
or the profile record of an ADOPT_PROFILE, and a non-urgent engine is served only when no other place has a request
waiting, its burst as an urgent one's (R18, R21, R36, R42, R122, R129, R132, R168). The time of the effect, and that
of a profile record running past 0x2000_0000 the bytes that remain are read, are the model's choices (log entries 14
and 47). -/
def Obligations.SharedPlaceAndNonUrgentEngines : Prop :=
  ∀ s : State, (∀ k, k < 16 → (s.tile k).engine.waiting true = false) → s.port.accesses = [] →
    s.reportRequest = none →
    (∀ a i rest, s.commit.attempt = some a → a.toRead = i :: rest →
      ∃ t e, exec .grantDecision s = .next t ∧ OnlyIn [.commit] s t ∧
        t.commit = { s.commit with attempt := some { a with toRead := rest, plates := a.plates ++ [(i, e)] } } ∧
        let b := Memory.readBytes s.mem (s.prof.plateTable + 32 * i) 32
        e.state = (match byteAt b 0 with | 0 => .empty | 1 => .loading | 2 => .ready | _ => .other) ∧
        e.base = leAt b 4 4 ∧ e.width = leAt b 8 2 ∧ e.height = leAt b 10 2 ∧ e.stride = leAt b 12 2) ∧
    (s.plateRequest = none → ∀ a, s.follower.fetch = some (.record a [] none) →
      ∃ t, exec .grantDecision s = .next t ∧ OnlyIn [.follower] s t ∧
        t.follower = { s.follower with fetch := some (.record a [] (some
          (Memory.readBytes s.mem (8 * (a / 8)) (8 * min 16 ((0x20000000 - a) / 8))))) }) ∧
    (s.plateRequest = none → ∀ a, s.follower.fetch = some (.link a none) →
      ∃ t, exec .grantDecision s = .next t ∧ OnlyIn [.follower] s t ∧
        t.follower = { s.follower with fetch := some (.link a (some (Memory.readWord s.mem (a / 8 + 4)))) }) ∧
    (s.plateRequest = none → s.followerWaits = false → ∀ a, s.window.adoption = some a → a.phase = .presented →
      ∃ t, exec .grantDecision s = .next t ∧ OnlyIn [.window] s t ∧
        t.window = { s.window with adoption := some { a with
          phase := .granted (Memory.readBytes s.mem a.arg.toNat (min 104 (0x20000000 - a.arg.toNat))) } }) ∧
    (s.plateRequest = none → s.followerWaits = false → s.profileWaits = false →
      ∀ k, FirstAfter s.arbiter.otherPtr k false s → k < s.tiles.length →
        ∃ t, exec .grantDecision s = .next t ∧ t.arbiter = { s.arbiter with otherPtr := k } ∧ OtherTilesKept k s t ∧
          OnlyIn [.tiles, .arbiter] s t ∧ EngineGranted k s t)

/-! ## The frame start and the commit -/

/-- FRAME_START: frame number and show clock advance together, a clock set of the new frame gives the clock its values
and clears a pending alignment, a pending alignment otherwise rounds the incremented clock by R14, and the latch, the
filters and show memory are left alone. An AT entry that has waited for that clock set, its last CLOCK cue, has its
target fixed from the clock as set, and one whose last CLOCK cue is still to come keeps waiting. Every scan context is
cleared after a WALL_RESET or advances its fade, takes its switches of the frame in list order and then its stop
switch; every link sends its header; every fetch engine is prepared from the scan context and the link state; while
the Frame Timing Generator is stopped nothing happens (R2, R3, R5, R7, R14, R65, R97, R101 to R107, R116, R118, R119,
R135). The order of the blocks inside one frame start, which of it a link command takes ahead, and that it may be
taken at a WAIT_LIMIT_SKIP, its FRAME_START then doing no more, are the model's (log entries 8, 9 and 10). -/
def Obligations.FrameStartAdvancesTheBeat : Prop :=
  ∀ s : State,
    (s.ftg.running = true → s.ftg.begun = false → ∃ t, exec .frameStart s = .next t ∧
      t.now = s.now + 1 ∧ t.ftg.running = true ∧ t.ftg.begun = false ∧ t.ftg.latch = s.ftg.latch ∧
      t.ftg.trigger = s.ftg.trigger ∧ t.ftg.pulse = s.ftg.pulse ∧ t.ftg.alignPending = false ∧
      t.window.resetTaken = false ∧
      (∀ e, s.ftg.clockSets.find? (fun e => e.visible == s.now + 1) = some e → t.ftg.clock = e.value) ∧
      ((∀ e ∈ s.ftg.clockSets, e.visible ≠ s.now + 1) →
        let c := s.ftg.clock.increment s.prof.rate
        (s.ftg.alignPending = false → t.ftg.clock = c) ∧
        (s.ftg.alignPending = true →
          (c.frame = 0 → t.ftg.clock = c) ∧
          (c.frame ≠ 0 → c.frame < s.prof.rate / 2 → t.ftg.clock = { c with frame := 0 }) ∧
          (c.frame ≠ 0 → s.prof.rate / 2 ≤ c.frame → t.ftg.clock = nextSecond c))) ∧
      (LookAheadInv s → ∀ e ∈ s.scheduler.queue, e.cue.mode = .atTime → e.target = none → e.departing = none →
        e.clockAhead = [] →
        let target := atTarget s.prof (s.now + 1) t.ftg.clock e.cue.atTime
        (e.clockFrame = some (s.now + 1) →
          (∀ x ∈ t.scheduler.queue, x.cue.record = e.cue.record → x.target = some target.1 ∧ x.late = target.2) ∧
          (e.cue.body.isScene = true → ∃ x ∈ t.scheduler.queue, x.cue = e.cue)) ∧
        (∀ f, e.clockFrame = some f → s.now + 1 < f →
          ∃ x ∈ t.scheduler.queue, x.cue = e.cue ∧ x.target = none)) ∧
      (∀ k, k < 16 → k < s.tiles.length →
        let before := s.tile k
        let after := t.tile k
        let due := before.switches.filter (fun sw => sw.frame == s.now + 1)
        let taken := due.foldl (scanTook (s.prof.size k)) (scanBegun s.window.resetTaken before.scan)
        let stops := before.stopAt = some (s.now + 1)
        (¬ stops → after.scan = taken ∧ after.stopAt = before.stopAt) ∧
        (stops → after.scan = { taken with current := .noPlate, fade := none, cue := none } ∧ after.stopAt = none ∧
          ∀ sw ∈ after.switches, sw.isScene = false) ∧
        (∀ sw ∈ before.switches, sw.frame ≠ s.now + 1 →
          (sw.isScene = true → ¬ stops ∧ ∀ x ∈ due, x.isScene = false) → sw ∈ after.switches) ∧
        after.engine =
          { main := laneBegun (match after.scan.fade with | some f => f.new | none => after.scan.current)
            old := after.scan.fade.map (fun f => laneBegun f.old)
            active := decide (after.link.startState = .joining ∨ after.link.startState = .inStep)
            sendRow := 0, sendCol := 0, underruns := before.engine.underruns
            flight := before.engine.flight.map (fun b => { b with stale := true }) } ∧
        (k < s.prof.tiles → before.link.stepped = false →
          after.link.startState = after.link.state ∧ after.link.blackRow = 0 ∧ after.link.blackCol = 0 ∧
          after.link.header = some ⟨BitVec.ofNat 8 (s.now + 1), before.link.identifyDue ||
            decide (after.link.state = .training ∧ before.link.state ≠ .training)⟩) ∧
        (k < s.prof.tiles → before.link.stepped = true →
          after.link = { before.link with stepped := false }) ∧
        (s.prof.tiles ≤ k → after.link = before.link)) ∧
      OnlyIn [.ftg, .follower, .scheduler, .commit, .tiles, .store, .report, .window] s t) ∧
    (s.ftg.running = true → s.ftg.begun = true →
      exec .frameStart s = .next (s.setFtg { s.ftg with begun := false })) ∧
    (s.ftg.running = false → exec .frameStart s = .next s)

/-- WAIT_LIMIT_SKIP: an event wait still unresolved at a frame start with now ≥ A + wait limit is removed as SKIPPED
NO_TRIGGER with slip 0, an event taken afterwards carrying the new frame; every wait is tested once, at that frame
start, those whose limit is met go together, their writes handed on in chain order, and the other entries stay, a
CLOCK cue so skipped no longer being waited for: an AT entry left with nothing to wait for has its target fixed from
the clock as it stands (R62, R65, R69, R73). That the command takes the whole frame start, so that its FRAME_START has
no more to do, is the model's choice (log entry 10). -/
def Obligations.ExpiredWaitIsSkipped : Prop :=
  ∀ (s : State) (record : Nat),
    let u := beginFrame s
    let v := scheduleAtFrameStart u
    let expired (record : Nat) : Prop := ∃ w ∈ u.evals, ∃ a, w.entry.cue.record = record ∧
      (w.entry.cue.mode = .onTrigger ∨ w.entry.cue.mode = .onPulse) ∧ w.vEff = none ∧ w.entry.eventFrame = none ∧
      0 < w.entry.cue.waitLimit ∧ (w.ref = .frame a ∨ w.ref = .opened a) ∧ a + w.entry.cue.waitLimit ≤ s.now + 1
    (s.ftg.running = true → s.ftg.begun = false → expired record →
      ∃ t, exec .frameStart s = .next t ∧
        exec (.waitLimitSkip record) s = .next (t.setFtg { t.ftg with begun := true }) ∧ t.now = s.now + 1 ∧
        (LookAheadInv s → ∀ r, expired r → Departed r .noTrigger t)) ∧
    (s.ftg.running = false ∨ s.ftg.begun = true ∨ ¬ expired record → exec (.waitLimitSkip record) s = .next s) ∧
    (LookAheadInv s →
      (∀ e ∈ u.scheduler.queue, e.departing = none → ¬ expired e.cue.record →
        ∃ x ∈ v.scheduler.queue, x.cue = e.cue ∧ x.departing = none) ∧
      ∀ l : List Nat, (∀ e ∈ u.scheduler.queue, e.departing = none) →
        l.Sublist (u.scheduler.queue.map (·.cue.record)) → (∀ r, r ∈ l ↔ expired r) →
        let n := min u.freePlaces l.length
        v.report.queue = u.report.queue ++
          (l.take n).map (fun r => .outcome ⟨r, .skipped .noTrigger 0⟩ false) ∧
        (∀ e ∈ u.scheduler.queue, ¬ expired e.cue.record →
          ∃ x ∈ v.scheduler.queue, ClocksGone (l.take n) none u e x) ∧
        (v.scheduler.queue.filter (·.departing.isSome)).map (·.cue.record) = l.drop n)

/-- COMMIT_DECISION with every plate ready and room: the scene commits with V = now + H, its showing-table entry is
made with DEGRADED, OVER_BUDGET and CLIPPED, each assigned tile gets a scene switch at V − L_k or V − Lmax with the
transition that the cut and fade demands leave, the COMMITTED write is handed on, the scene becomes the last committed
one with its dwell, dwell end and EXTEND, and its entry leaves the queue: the Chain Follower leaves FULL, DRY is
raised when it was the last in AWAIT_LINK, and the run goes on. The oldest entry is due when it is resolved with V_eff
= now + H and stood in the queue at the frame start. In a frame start's run a due TRIM, CLOCK or MARK cue with room
commits at once: it joins the due list, its trim switches or clock set are placed, no write is made, an AT entry that
waited for a CLOCK cue goes on waiting for its V, the Chain Follower and DRY are told likewise, and the run goes on;
without room it is deferred. A due SCENE begins its attempt there: two places are reserved, and each plate index it
names is to be read, once, in order of first appearance; with fewer than 8 open places the run stops (R6, R21, R29,
R41, R44, R57, R61, R65, R74, R78, R79, R83 to R88, R91, R132). That the attempted entry is still the due one is a
condition of the model (log entry 16), and open places are counted as log entry 15 says. -/
def Obligations.ReadySceneCommits : Prop :=
  (∀ (s : State) (a : Attempt) (v : Eval) (l : List Assignment), s.commit.attempt = some a → a.toRead = [] →
    Due s v → v.entry.cue.body = .scene l → v.entry.cue.record = a.record →
    (∀ x ∈ l, (a.plate x.plate).isReady = true) → s.commit.showing.length < 24 →
    (∀ x ∈ l, (s.tile x.tile).switches.countP (fun sw => sw.frame != s.now) < 16) →
    (∀ x ∈ l, x.tile < s.tiles.length) →
    let budget := s.prof.budget * 1024
    let cut := demandAtCut s a.plate l
    let fade := demandAtFade s a.plate l
    let tr := match v.entry.cue.transition with
      | .cut => Transition.cut
      | .fade n => if (1 ≤ n ∧ budget < fade) ∨ budget < cut then .cut else .fade n
    ∃ t id, exec .commitDecision s = .next t ∧ id.record = v.entry.cue.record ∧
      id.pass = s.commit.commitCount + 1 ∧
      t.commit.showing = s.commit.showing ++ [
        { id := id, visible := s.now + s.horizon, held := l.map (·.tile), shown := false, keep := v.entry.cue.keep
          dwellEnd := if v.entry.cue.dwell = 0 then none else some (s.now + s.horizon + v.entry.cue.dwell)
          degraded := match v.entry.cue.transition with
            | .cut => false
            | .fade n => decide (1 ≤ n ∧ budget < fade)
          overBudget := decide (budget < cut)
          clipped := l.any (fun x => decide ((a.plate x.plate).width - x.x0 < (s.prof.size x.tile).1 ∨
            (a.plate x.plate).height - x.y0 < (s.prof.size x.tile).2)) }] ∧
      (∀ x ∈ l, ∃ sw ∈ (t.tile x.tile).switches,
        sw.body = .scene (a.plate x.plate).snapshot x.x0 x.y0 x.fill tr id ∧
        sw.frame = s.now + s.horizon - ((s.tile x.tile).link.latency.getD s.prof.lmax)) ∧
      t.report.queue = s.report.queue ++
        [.outcome ⟨v.entry.cue.record, .committed (s.now + s.horizon) v.slip v.entry.late⟩ false] ∧
      t.scheduler.lastFrame = some (s.now + s.horizon) ∧
      t.scheduler.lastScene = some
        { id := id, visible := s.now + s.horizon, dwell := v.entry.cue.dwell, extend := v.entry.cue.extend
          dwellEnd := if v.entry.cue.dwell = 0 then none else some (s.now + s.horizon + v.entry.cue.dwell) } ∧
      AttemptLeaves v.entry.cue.record s t ∧
      OnlyIn [.commit, .tiles, .ftg, .scheduler, .follower, .report, .window] s t) ∧
  (∀ s : State, s.ftg.running = true → s.ftg.begun = false →
    let u := markAttemptable (takeRefresh (untilRefresh s))
    let t := dryEdge s (pollLink (attemptRun (u.scheduler.queue.length + 1) u))
    exec .frameStart s = .next t ∧
      (s.follower.state = .awaitLink → s.scheduler.queue ≠ [] → t.scheduler.queue = [] → t.flag .dry = true)) ∧
  (∀ (n : Nat) (u : State),
    u.openPlaces < 8 ∨ u.window.wall ≠ .showing ∨ u.commit.attempt.isSome = true ∨ (∀ v, ¬ Due u v) →
    attemptRun (n + 1) u = u) ∧
  (∀ (n : Nat) (u : State) (v : Eval) (l : List Assignment), u.window.wall = .showing → u.commit.attempt = none →
    Due u v → 8 ≤ u.openPlaces → v.entry.cue.body = .scene l →
    let named := l.map (·.plate)
    ∃ toRead t, attemptRun (n + 1) u = t ∧ OnlyIn [.commit] u t ∧
      t.commit = { u.commit with attempt := some ⟨v.entry.cue.record, toRead, []⟩ } ∧
      t.reservedPlaces = u.reservedPlaces + 2 ∧ (∀ p, p ∈ toRead ↔ p ∈ named) ∧
      toRead.Pairwise (fun p q => named.idxOf p < named.idxOf q)) ∧
  ∀ (n : Nat) (u : State) (v : Eval), u.window.wall = .showing → u.commit.attempt = none → Due u v →
    8 ≤ u.openPlaces → (∀ l, v.entry.cue.body ≠ .scene l) →
    let c := v.entry.cue
    let room := u.commit.due.length < 16 ∧ ∀ l, c.body = .trim l → ∀ x ∈ l,
      (u.tile x.tile).switches.countP (fun sw => sw.frame != u.now) < 16
    (¬ room → attemptRun (n + 1) u = u) ∧
    (room → ∃ t, attemptRun (n + 1) u = attemptRun n t ∧ OnlyIn [.commit, .tiles, .ftg, .scheduler, .follower] u t ∧
      t.commit = { u.commit with
        commitCount := u.commit.commitCount + 1
        due := u.commit.due ++
          [{ record := c.record, pass := u.commit.commitCount + 1, body := c.body, keep := c.keep
             visible := u.now + u.horizon, slip := v.slip, late := v.entry.late, persist := c.persist }] } ∧
      t.scheduler.lastFrame = some (u.now + u.horizon) ∧ t.scheduler.lastScene = u.scheduler.lastScene ∧
      (∀ e ∈ t.scheduler.queue, e.cue.record ≠ c.record) ∧ t.ftg = { u.ftg with clockSets := t.ftg.clockSets } ∧
      FollowerTold u t ∧ EntryLeft c.record
        (match c.body with | .clock _ => some (u.now + u.horizon) | .scene _ | .trim _ | .mark _ => none) u t ∧
      (∀ l, c.body = .trim l → t.ftg = u.ftg ∧ ∀ x ∈ l, x.tile < u.tiles.length →
        ⟨u.now + u.horizon - ((u.tile x.tile).link.latency.getD u.prof.lmax), .trim x.street x.dusk⟩ ∈
          (t.tile x.tile).switches) ∧
      (∀ value, c.body = .clock value → t.tiles = u.tiles ∧
        (∃ e ∈ t.ftg.clockSets, e.visible = u.now + u.horizon ∧ e.value = value ∧ c.record ∈ e.records) ∧
        ∀ e ∈ u.ftg.clockSets, e.visible ≠ u.now + u.horizon → e ∈ t.ftg.clockSets) ∧
      (∀ tag, c.body = .mark tag → t.tiles = u.tiles ∧ t.ftg = u.ftg))

/-- COMMIT_DECISION with an invalid plate refuses the cue BADPLATE at once, with its fault record; with a plate not
ready it defers, charging one frame of slack, or with the slack used up skips the cue NOT_READY; with every plate
ready and no room it defers and charges nothing. An entry that leaves takes the Chain Follower out of FULL, raises DRY
when it was the last in AWAIT_LINK, and the run goes on (R22, R41, R44, R62, R74, R78, R81 to R83, R188). That the
entry is still the due one is a condition of the model (log entry 16). -/
def Obligations.UnreadySceneWaitsOrLeaves : Prop :=
  ∀ (s : State) (a : Attempt) (v : Eval) (l : List Assignment), s.commit.attempt = some a → a.toRead = [] →
    Due s v → v.entry.cue.body = .scene l → v.entry.cue.record = a.record →
    (∀ i x, l[i]? = some x → (a.plate x.plate).invalid = true →
      (∀ j y, j < i → l[j]? = some y → (a.plate y.plate).invalid = false) →
      ∃ t, exec .commitDecision s = .next t ∧ AttemptLeaves v.entry.cue.record s t ∧
        OnlyIn [.commit, .tiles, .ftg, .scheduler, .follower, .report, .window] s t ∧
        t.commit.showing = s.commit.showing ∧
        t.report.queue = s.report.queue ++
          [.outcome ⟨v.entry.cue.record, .refused .badPlate⟩ false,
           .fault { kind := .badPlate, hold := false, address := BitVec.ofNat 32 v.entry.cue.record, frame := s.now,
                    detail := BitVec.ofNat 64 (i % 256 + 256 * (x.plate % 256)) } false]) ∧
    ((∀ x ∈ l, (a.plate x.plate).invalid = false) → (∃ x ∈ l, (a.plate x.plate).isReady = false) →
      (v.entry.slackUsed < v.entry.cue.slack →
        ∃ t, exec .commitDecision s = .next t ∧ OnlyIn [.commit, .scheduler] s t ∧
          t.commit = { s.commit with attempt := none } ∧
          t.scheduler.queue = s.scheduler.queue.map (fun e =>
            if e.cue.record = v.entry.cue.record then { e with slackUsed := e.slackUsed + 1 } else e)) ∧
      (v.entry.cue.slack ≤ v.entry.slackUsed →
        ∃ t, exec .commitDecision s = .next t ∧ AttemptLeaves v.entry.cue.record s t ∧
          OnlyIn [.commit, .tiles, .ftg, .scheduler, .follower, .report, .window] s t ∧
          t.commit.showing = s.commit.showing ∧
          t.report.queue = s.report.queue ++
            [.outcome ⟨v.entry.cue.record, .skipped .notReady v.slip⟩ false])) ∧
    ((∀ x ∈ l, (a.plate x.plate).isReady = true) →
      (24 ≤ s.commit.showing.length ∨
        ∃ x ∈ l, 16 ≤ (s.tile x.tile).switches.countP (fun sw => sw.frame != s.now)) →
      ∃ t, exec .commitDecision s = .next t ∧ OnlyIn [.commit] s t ∧ t.commit = { s.commit with attempt := none })

/-! ## The chain -/

/-- In FETCHING with no fetch in flight the follower acts on the first of the four conditions of R35. The test is its
own command in the model (log entry 34), and open places are counted as log entry 15 says. -/
def Obligations.FetchBeginsByFourConditions : Prop :=
  ∀ s : State, s.follower.state = .fetching → s.follower.fetch = none →
    ∃ t, exec .fetchBegin s = .next t ∧ OnlyIn [.follower] s t ∧
      let inUse := (∃ e ∈ s.scheduler.queue, e.cue.record = s.follower.follow) ∨
        (∃ k g, QueueItem.outcome ⟨s.follower.follow, k⟩ g ∈ s.report.queue) ∨
        (∃ w ∈ s.commit.handoff, w.record = s.follower.follow)
      (8 ≤ s.scheduler.queue.length → t.follower = { s.follower with state := .full }) ∧
      (s.scheduler.queue.length < 8 → inUse → t.follower = { s.follower with state := .waitReuse }) ∧
      (s.scheduler.queue.length < 8 → ¬ inUse → s.openPlaces < 2 → t = s) ∧
      (s.scheduler.queue.length < 8 → ¬ inUse → 2 ≤ s.openPlaces →
        t.follower = { s.follower with fetch := some (.record s.follower.follow [] none) } ∧
        t.reservedPlaces = s.reservedPlaces + 2)

/-- The words of a record that passes every check enter it at the tail of the look-ahead queue, the fields of its
bytes in its snapshot, not to be attempted before the next frame start; they fix an AT target that no CLOCK cue ahead
may still change, and otherwise note the CLOCK entries ahead in the queue and the last frame of the clock-set list,
which the entry waits for; they hand on its QUEUED write, and take its link. A longer SCENE or TRIM record that passes
the framing checks is read further with a second request for its remaining words, whose arrival completes it (R36,
R40, R55, R61, R64, R65, R78, R186). That the request is granted by one decision at the shared place, and that a CLOCK
entry that is departing is not waited for, are the model's readings (log entries 14 and 24). -/
def Obligations.GoodRecordIsAccepted : Prop :=
  (∀ (a : Nat) (arrived data : List Byte) (s : State), s.follower.fetch = some (.record a arrived (some data)) →
    let r := arrived ++ data
    let longer := (byteAt r 2 = 1 ∨ byteAt r 2 = 2) ∧ 16 < byteAt r 3
    (arrived = [] → firstFailing (framingChecks a r) = none → longer →
      ∃ t, exec .recordWordsArrived s = .next t ∧ OnlyIn [.follower] s t ∧
        t.follower = { s.follower with fetch := some (.record a r none) }) ∧
    ((arrived = [] → firstFailing (framingChecks a r) = none ∧ ¬ longer) →
      firstFailing (meaningChecks s.prof.tiles s.prof.rate r) = none →
      ∃ t e, exec .recordWordsArrived s = .next t ∧ OnlyIn [.follower, .scheduler, .report] s t ∧
        t.scheduler = { s.scheduler with queue := s.scheduler.queue ++ [e] } ∧
        e.slackUsed = 0 ∧ e.eventFrame = none ∧ e.departing = none ∧ e.attemptable = false ∧
        e.clockAhead.Sublist (s.scheduler.queue.map (·.cue.record)) ∧
        (∀ r, r ∈ e.clockAhead ↔
          ∃ x ∈ s.scheduler.queue, x.cue.record = r ∧ x.departing = none ∧ ∃ c, x.cue.body = .clock c) ∧
        (s.ftg.clockSets = [] → e.clockFrame = none) ∧
        (s.ftg.clockSets ≠ [] → ∃ last ∈ s.ftg.clockSets, e.clockFrame = some last.visible ∧
          ∀ c ∈ s.ftg.clockSets, c.visible ≤ last.visible) ∧
        (e.cue.mode ≠ .atTime → e.target = none ∧ e.late = false) ∧
        (e.cue.mode = .atTime →
          let clockAhead := (∃ x ∈ s.scheduler.queue, x.departing = none ∧ ∃ c, x.cue.body = .clock c) ∨
            s.ftg.clockSets ≠ []
          let target := atTarget s.prof s.now s.ftg.clock e.cue.atTime
          (clockAhead → e.target = none ∧ e.late = false) ∧
          (¬ clockAhead → e.target = some target.1 ∧ e.late = target.2)) ∧
        e.cue.record = a ∧ BodyOf r e.cue.body ∧
        byteAt r 6 = (match e.cue.mode with | .after => 0 | .atTime => 1 | .onTrigger => 2 | .onPulse => 3) ∧
        e.cue.keep = decide (byteAt r 5 % 2 = 1) ∧ e.cue.extend = decide (byteAt r 5 / 2 % 2 = 1) ∧
        e.cue.persist = decide (byteAt r 5 / 4 % 2 = 1) ∧ e.cue.dwell = leAt r 8 3 ∧
        e.cue.transition = (if byteAt r 7 = 1 ∧ byteAt r 11 ≠ 0 then .fade (byteAt r 11) else .cut) ∧
        e.cue.slack = byteAt r 12 ∧ e.cue.waitLimit = leAt r 14 2 ∧
        e.cue.atTime = ⟨byteAt r 16, byteAt r 17, byteAt r 18, byteAt r 19⟩ ∧
        t.report = { s.report with queue := s.report.queue ++ [.outcome ⟨a, .queued⟩ false] } ∧
        (leAt r 32 8 = 0 → t.follower = { s.follower with state := .awaitLink, follow := a, fetch := none }) ∧
        (leAt r 32 8 ≠ 0 →
          t.follower = { s.follower with state := .fetching, follow := leAt r 32 8, fetch := none }))) ∧
  ∀ (a : Nat) (r : List Byte) (s : State), s.follower.fetch = some (.record a r none) → r ≠ [] →
    (∀ k, k < 16 → (s.tile k).engine.waiting true = false) → s.port.accesses = [] →
    s.reportRequest = none → s.plateRequest = none →
    ∃ t, exec .grantDecision s = .next t ∧ OnlyIn [.follower] s t ∧
      t.follower = { s.follower with fetch := some (.record a r (some
        (Memory.readBytes s.mem (8 * (a / 8) + 128) (8 * (byteAt r 3 - 16))))) }

/-- A record that fails a framing check holds the follower at it, with a fault record of the first that fails and
nothing written into the record or the queue; one that fails a check of meaning is refused, REFUSED first and its
fault record after it, and its link is taken. The words of a second request are not framed again (R36, R37, R39, R52,
R188). -/
def Obligations.BadRecordIsHeldOrRefused : Prop :=
  ∀ (a : Nat) (arrived data : List Byte) (s : State), s.follower.fetch = some (.record a arrived (some data)) →
    let r := arrived ++ data
    let longer := (byteAt r 2 = 1 ∨ byteAt r 2 = 2) ∧ 16 < byteAt r 3
    (∀ reason detail, arrived = [] → firstFailing (framingChecks a r) = some (reason, detail) →
      ∃ t, exec .recordWordsArrived s = .next t ∧ OnlyIn [.follower, .report] s t ∧
        t.follower = { state := .hold, follow := a, position := .record, reason := some reason, fetch := none } ∧
        t.report = { s.report with queue := s.report.queue ++
          [.fault { hold := true, address := BitVec.ofNat 32 a, frame := s.now, detail := detail
                    kind := match reason with
                      | .address => .address | .marker => .marker | .count => .count | .length => .length
                      | .link => .link | .stale => .stale } false] }) ∧
    ((arrived = [] → firstFailing (framingChecks a r) = none ∧ ¬ longer) →
      ∀ reason detail, firstFailing (meaningChecks s.prof.tiles s.prof.rate r) = some (reason, detail) →
        ∃ t, exec .recordWordsArrived s = .next t ∧ OnlyIn [.follower, .report, .window] s t ∧
          t.report = { s.report with queue := s.report.queue ++
            [.outcome ⟨a, .refused reason⟩ false,
             .fault { hold := false, address := BitVec.ofNat 32 a, frame := s.now, detail := detail
                      kind := match reason with
                        | .badKind => .badKind | .badTime => .badTime | .badTile => .badTile | .dupTile => .dupTile
                        | .badPlate => .badPlate } false] } ∧
          t.follower.fetch = none ∧
          (leAt r 32 8 = 0 → t.follower.state = .awaitLink ∧ t.follower.follow = a ∧
            (s.scheduler.queue = [] → s.follower.state ≠ .awaitLink → t.flag .dry = true)) ∧
          (leAt r 32 8 ≠ 0 → t.follower.state = .fetching ∧ t.follower.follow = leAt r 32 8 ∧ t.window = s.window))

/-- In AWAIT_LINK the follower polls the tail's link word at every frame start, unless a read of it is in flight. When
the word arrives, 0 keeps the follower where it is, a good address is followed, and a bad one holds with reason LINK
at the tail, the value in the fault record's detail (R42). That a frame start may be taken at a WAIT_LIMIT_SKIP is the
model's choice (log entry 10). -/
def Obligations.LinkWordIsJudged : Prop :=
  (∀ s : State, s.ftg.running = true → s.ftg.begun = false → s.follower.state = .awaitLink →
    ∃ t, exec .frameStart s = .next t ∧
      (s.follower.fetch = none → t.follower = { s.follower with fetch := some (.link s.follower.follow none) }) ∧
      (s.follower.fetch ≠ none → t.follower = s.follower)) ∧
  ∀ (a : Nat) (w : Word) (s : State), s.follower.fetch = some (.link a (some w)) →
    ∃ t, exec .linkReadReturn s = .next t ∧ OnlyIn [.follower, .report] s t ∧
      (w = 0 → t.follower = { s.follower with fetch := none } ∧ t.report = s.report) ∧
      (GoodAddress w.toNat →
        t.follower = { s.follower with state := .fetching, follow := w.toNat, fetch := none } ∧ t.report = s.report) ∧
      (w ≠ 0 → ¬ GoodAddress w.toNat →
        t.follower = { state := .hold, follow := a, position := .link, reason := some .link, fetch := none } ∧
        HandedFault { kind := .link, hold := true, address := BitVec.ofNat 32 a, frame := s.now, detail := w } s t)

/-! ## The write queue -/

/-- A free place receives the oldest departing entry's write and the entry leaves the queue; with no entry departing a
waiting fault record of a hold is received, and with none of those waiting the head of the hand-off list. The leaving
entry takes the Chain Follower out of FULL, raises DRY when it was the last in AWAIT_LINK, and, a CLOCK entry, drops
out of the waits for it: an AT entry left with nothing to wait for has its target fixed. While an entry is departing
no other write is received, and while any write waits no place is open to a fetch, an attempt or a refresh (R41, R44,
R52, R65, R73, R79). That last, for the fault record of a hold and the hand-off list, is the model's choice (log entry
15). -/
def Obligations.WaitingWritesAreReceived : Prop :=
  (∀ (s : State) (record : Nat) (d : Departure), s.oldestDeparting = some (record, d) → 0 < s.freePlaces →
    ∃ t, exec .departingWriteReceived s = .next t ∧ OnlyIn [.scheduler, .follower, .report, .window] s t ∧
      t.report = { s.report with queue := s.report.queue ++ [.outcome ⟨record, departureWrite d⟩ false] } ∧
      t.scheduler = { s.scheduler with queue := t.scheduler.queue } ∧ EntryLeft record none s t ∧
      FollowerTold s t ∧ DryTold s t) ∧
  (∀ (s : State) (f : FaultRecord) (rest : List FaultRecord), s.report.holdFaults = f :: rest →
    (∀ e ∈ s.scheduler.queue, e.departing = none) → 0 < s.freePlaces →
    ∃ t, exec .holdFaultReceived s = .next t ∧ OnlyIn [.report] s t ∧
      t.report = { s.report with queue := s.report.queue ++ [.fault f false], holdFaults := rest }) ∧
  (∀ (s : State) (w : OutcomeWrite) (rest : List OutcomeWrite), s.commit.handoff = w :: rest →
    (∀ e ∈ s.scheduler.queue, e.departing = none) → s.report.holdFaults = [] → 0 < s.freePlaces →
    ∃ t, exec .handoffWriteReceived s = .next t ∧ OnlyIn [.report, .commit] s t ∧
      t.report = { s.report with queue := s.report.queue ++ [.outcome w false] } ∧
      t.commit = { s.commit with handoff := rest }) ∧
  (∀ s : State, (∃ e ∈ s.scheduler.queue, e.departing.isSome = true) →
    s.openPlaces = 0 ∧ exec .holdFaultReceived s = .next s ∧ exec .handoffWriteReceived s = .next s ∧
      ∃ t, exec .fetchBegin s = .next t ∧ OnlyIn [.follower] s t ∧ t.follower.fetch = s.follower.fetch) ∧
  ∀ s : State,
    (s.report.holdFaults ≠ [] → s.openPlaces = 0 ∧ exec .handoffWriteReceived s = .next s) ∧
    (s.commit.handoff ≠ [] → s.openPlaces = 0) ∧
    ((∀ e ∈ s.scheduler.queue, e.departing = none) → s.report.holdFaults = [] → s.commit.handoff = [] →
      s.openPlaces = 64 - s.report.queue.length - s.reservedPlaces)

/-- The write at the head of the queue lands: RELEASED, DONE, SKIPPED, REFUSED and WITHDRAWN, the final states, are
counted and raise FINAL, a fault record raises FAULT and for a hold HOLD, a refresh wholly performed raises MARK or
STORE for what it newly carried; a follower in WAIT_REUSE goes on once no write or entry of its record is left (R41,
R52, R182, R184). Landing apart from the grant is the model's choice (log entry 14). -/
def Obligations.WritesLandInOrder : Prop :=
  (∀ (s : State) (w : OutcomeWrite) (rest : List QueueItem), s.report.queue = .outcome w true :: rest →
    ∃ t, exec .outcomeWriteLanded s = .next t ∧ OnlyIn [.report, .window, .follower] s t ∧
      t.report = { s.report with queue := rest, handback := t.report.handback } ∧
      (match w.kind with
        | .released | .done _ _ _ _ | .skipped _ _ | .refused _ | .withdrawn =>
          t.report.handback = s.report.handback + 1 ∧ t.flag .final = true
        | .queued | .committed _ _ _ | .sceneShown _ _ _ | .keepShown _ _ _ _ =>
          t.report.handback = s.report.handback ∧ t.window = s.window) ∧
      (s.follower.state ≠ .waitReuse → t.follower = s.follower) ∧
      (s.follower.state = .waitReuse →
        (∀ e ∈ s.scheduler.queue, e.cue.record ≠ s.follower.follow) →
        (∀ k g, QueueItem.outcome ⟨s.follower.follow, k⟩ g ∉ rest) →
        (∀ x ∈ s.commit.handoff, x.record ≠ s.follower.follow) →
        t.follower = { s.follower with state := .fetching })) ∧
  (∀ (s : State) (f : FaultRecord) (rest : List QueueItem), s.report.queue = .fault f true :: rest →
    ∃ t, exec .faultRecordLanded s = .next t ∧ OnlyIn [.report, .window] s t ∧
      t.report = { s.report with queue := rest } ∧ t.flag .fault = true ∧ (f.hold = true → t.flag .hold = true) ∧
      (f.hold = false → t.flag .hold = s.flag .hold)) ∧
  (∀ (s : State) (g : PageSnapshot) (tag result : Bool) (rest : List QueueItem),
    s.report.queue = .refresh g 6 tag result :: rest →
    ∃ t, exec .refreshLanded s = .next t ∧ OnlyIn [.report, .window] s t ∧ t.report = { s.report with queue := rest } ∧
      t.flag .mark = (s.flag .mark || tag) ∧ t.flag .store = (s.flag .store || result))

/-! ## Tile links -/

/-- GRACE_EXPIRED and JOIN_COMPLETE: with the miss run at grace the tile is lost, its engine inactive and TILE raised;
with the join count at H the tile is in step and TILE raised. FRAME_START makes the same transitions, counts the
misses short of grace, leaves a tile accepted during the frame just ended unjudged and uncounted, and takes a LOST
tile whose panel is heard again to TRAINING with an IDENTIFY (R119, R135, R136, R141 to R143, R148). That the two
commands take the tile's part of the frame start, its header with it, ahead of the rest is the model's choice (log
entry 9). -/
def Obligations.LinkLossAndJoin : Prop :=
  ∀ (k : Nat) (s : State), s.ftg.running = true → k < 16 → k < s.prof.tiles →
    k < s.tiles.length → (s.tile k).link.stepped = false →
    let l := (s.tile k).link
    let good := BitVec.ofNat 8 s.now ∈ l.echoes
    let judged := l.startState = .joining ∨ l.startState = .inStep ∨ l.startState = .misfit
    ((l.state = .joining ∨ l.state = .inStep ∨ l.state = .misfit) → judged → ¬ good → s.prof.grace ≤ l.missRun + 1 →
      let lost (t : State) : Prop :=
        (t.tile k).link.state = .lost ∧ (t.tile k).link.timer = 0 ∧ (t.tile k).link.missRun = 0 ∧
        (t.tile k).link.missCount = min (l.missCount + 1) 65535 ∧ (t.tile k).link.descriptor = l.descriptor ∧
        (t.tile k).link.header = some ⟨BitVec.ofNat 8 (s.now + 1), l.identifyDue⟩ ∧
        (t.tile k).engine.active = false ∧ t.flag .tile = true
      (∃ t, exec (.graceExpired k) s = .next t ∧ OnlyIn [.tiles, .window] s t ∧ OtherTilesKept k s t ∧ lost t ∧
        (t.tile k).engine.main.words = [] ∧ (t.tile k).scan = (s.tile k).scan ∧
        (t.tile k).switches = (s.tile k).switches) ∧
      (s.ftg.begun = false → ∃ t, exec .frameStart s = .next t ∧ lost t)) ∧
    (l.state = .joining → (l.startState = .joining ∨ l.startState = .inStep) → (good ∨ l.missRun + 1 < s.prof.grace) →
      let after (t : State) : Prop :=
        (t.tile k).link.missRun = (if good then 0 else l.missRun + 1) ∧
        (t.tile k).link.missCount = (if good then l.missCount else min (l.missCount + 1) 65535) ∧
        (t.tile k).link.descriptor = l.descriptor ∧
        (t.tile k).link.header = some ⟨BitVec.ofNat 8 (s.now + 1), l.identifyDue⟩
      (s.horizon ≤ l.joinCount + 1 →
        (∃ t, exec (.joinComplete k) s = .next t ∧ OnlyIn [.tiles, .window] s t ∧ OtherTilesKept k s t ∧ after t ∧
          (t.tile k).link.state = .inStep ∧ (t.tile k).engine = (s.tile k).engine ∧
          (t.tile k).scan = (s.tile k).scan ∧ t.flag .tile = true) ∧
        (s.ftg.begun = false → ∃ t, exec .frameStart s = .next t ∧ after t ∧ (t.tile k).link.state = .inStep ∧
          (t.tile k).engine.active = true ∧ t.flag .tile = true)) ∧
      (l.joinCount + 1 < s.horizon → s.ftg.begun = false → ∃ t, exec .frameStart s = .next t ∧ after t ∧
        (t.tile k).link.state = .joining ∧ (t.tile k).link.joinCount = l.joinCount + 1)) ∧
    ((l.state = .inStep ∨ l.state = .misfit) → judged → (good ∨ l.missRun + 1 < s.prof.grace) →
      s.ftg.begun = false → ∃ t, exec .frameStart s = .next t ∧ (t.tile k).link.state = l.state ∧
        (t.tile k).link.missRun = (if good then 0 else l.missRun + 1) ∧
        (t.tile k).link.missCount = (if good then l.missCount else min (l.missCount + 1) 65535)) ∧
    ((l.state = .joining ∨ l.state = .misfit) → l.startState = .training →
      exec (.graceExpired k) s = .next s ∧ exec (.joinComplete k) s = .next s ∧
      (s.ftg.begun = false → ∃ t, exec .frameStart s = .next t ∧ (t.tile k).link.state = l.state ∧
        (t.tile k).link.joinCount = l.joinCount ∧ (t.tile k).link.missRun = l.missRun ∧
        (t.tile k).link.missCount = l.missCount ∧ (t.tile k).link.descriptor = l.descriptor ∧
        (t.tile k).link.startState = l.state ∧
        (t.tile k).link.header = some ⟨BitVec.ofNat 8 (s.now + 1), l.identifyDue⟩ ∧
        (t.tile k).engine.active = decide (l.state = .joining))) ∧
    (l.state = .lost → l.startState = .lost → good → s.ftg.begun = false →
      ∃ t, exec .frameStart s = .next t ∧ (t.tile k).link.state = .training ∧ (t.tile k).link.timer = 0 ∧
        (t.tile k).link.header = some ⟨BitVec.ofNat 8 (s.now + 1), true⟩ ∧ (t.tile k).engine.active = false ∧
        (t.tile k).link.missRun = l.missRun ∧ (t.tile k).link.missCount = l.missCount)

/-- LOST_TIMEOUT, ABSENT_IDENTIFY and TRAINING_TIMEOUT: the training timer's ends, none of which raises TILE;
FRAME_START makes the same transitions, and before the end adds 1 to the timer (R138, R139, R143, R148). That the
three commands take the tile's part of the frame start, its header with it, ahead of the rest is the model's choice
(log entry 9). -/
def Obligations.TrainingTimerEnds : Prop :=
  ∀ (k : Nat) (s : State), s.ftg.running = true → k < 16 → k < s.prof.tiles →
    k < s.tiles.length → (s.tile k).link.stepped = false →
    let l := (s.tile k).link
    let heard := BitVec.ofNat 8 s.now ∈ l.echoes
    let becomes (state : LinkState) (timer : Nat) (identify : Bool) (t : State) : Prop :=
      (t.tile k).link.state = state ∧ (t.tile k).link.timer = timer ∧ (t.tile k).link.missCount = l.missCount ∧
      (t.tile k).link.descriptor = l.descriptor ∧
      (t.tile k).link.header = some ⟨BitVec.ofNat 8 (s.now + 1), identify⟩
    (l.state = .lost → ¬ heard → l.timer = 59 →
      (∃ t, exec (.lostTimeout k) s = .next t ∧ OnlyIn [.tiles] s t ∧ OtherTilesKept k s t ∧
        becomes .absent 0 l.identifyDue t) ∧
      (s.ftg.begun = false → ∃ t, exec .frameStart s = .next t ∧ becomes .absent 0 l.identifyDue t)) ∧
    (l.state = .absent → l.timer = 59 →
      (∃ t, exec (.absentIdentify k) s = .next t ∧ OnlyIn [.tiles] s t ∧ OtherTilesKept k s t ∧
        becomes .training 0 true t) ∧
      (s.ftg.begun = false → ∃ t, exec .frameStart s = .next t ∧ becomes .training 0 true t)) ∧
    (l.state = .training → l.timer = 29 →
      (∃ t, exec (.trainingTimeout k) s = .next t ∧ OnlyIn [.tiles] s t ∧ OtherTilesKept k s t ∧
        becomes .absent 0 l.identifyDue t) ∧
      (s.ftg.begun = false → ∃ t, exec .frameStart s = .next t ∧ becomes .absent 0 l.identifyDue t)) ∧
    ((l.state = .absent ∧ l.timer < 59) ∨ (l.state = .lost ∧ l.timer < 59 ∧ ¬ heard) ∨
        (l.state = .training ∧ l.timer < 29) → s.ftg.begun = false →
      ∃ t, exec .frameStart s = .next t ∧ becomes l.state (l.timer + 1) l.identifyDue t)

/-- ECHO is counted in the current frame. DESCRIPTOR is taken in TRAINING alone: it is kept, a panel that fits takes
the tile to JOINING, and one that does not takes it to MISFIT and raises TILE (R136, R137, R140). -/
def Obligations.EchoAndDescriptorTaken : Prop :=
  (∀ (k : Nat) (tag : Byte) (s : State), s.ftg.running = true → k < s.prof.tiles → k < s.tiles.length →
    ∃ t, exec (.echo k tag) s = .next t ∧ OnlyIn [.tiles] s t ∧ OtherTilesKept k s t ∧
      t.tile k = { s.tile k with link := { (s.tile k).link with echoes := (s.tile k).link.echoes ++ [tag] } }) ∧
  (∀ (k : Nat) (d : PanelDescriptor) (s : State), s.ftg.running = true → k < s.prof.tiles → k < s.tiles.length →
    ((s.tile k).link.state = .training → d.latency ≤ s.prof.lmax → (d.width, d.height) = s.prof.size k →
      ∃ t, exec (.descriptor k d) s = .next t ∧ OnlyIn [.tiles] s t ∧ OtherTilesKept k s t ∧
        t.tile k = { s.tile k with link := { (s.tile k).link with
          descriptor := some d, state := .joining, joinCount := 0, missRun := 0 } } ∧
        (t.tile k).link.latency = some d.latency) ∧
    ((s.tile k).link.state = .training → ¬ (d.latency ≤ s.prof.lmax ∧ (d.width, d.height) = s.prof.size k) →
      ∃ t, exec (.descriptor k d) s = .next t ∧ OnlyIn [.tiles, .window] s t ∧ OtherTilesKept k s t ∧
        t.tile k = { s.tile k with link := { (s.tile k).link with
          descriptor := some d, state := .misfit, missRun := 0 } } ∧
        (t.tile k).link.latency = none ∧ t.flag .tile = true) ∧
    ((s.tile k).link.state ≠ .training → exec (.descriptor k d) s = .next s))

/-! ## Pixels -/

/-- The link takes the next pixel of a tile (R107, R108, R112, R119, R121, R125 to R127, R135, R144): in a frame that
carries no content black, h rows of w of it; otherwise each lane in use gives its value, the fill outside its plate,
its next plate pixel inside it, and from an underrun to the end of the row's plate positions the last pixel sent or
the fill; in a fade the old and the new lane, read independently, are mixed at the fade's step; the value is levelled,
a row's first underrun is counted, each raises UNDERRUN, the position moves on, and a new row begins afresh; after the
last row nothing. The black pixel of a black frame, the fill of a lane without content, the byte order of a pixel, and
that no pixel is taken once the next frame's header is out are the model's choices (log entries 9, 26, 30 and 35). -/
def Obligations.LinkTakesTheNextPixel : Prop :=
  ∀ (k : Nat) (s : State), s.ftg.running = true → k < s.prof.tiles → k < s.tiles.length →
    let e := (s.tile k).engine
    let b := (s.tile k).link
    let w := (s.prof.size k).1
    let h := (s.prof.size k).2
    let fill (l : Lane) : Rgb := l.content.fill.getD s.prof.idleFill
    let onward (l : Lane) : Lane := if e.sendCol + 1 < w then l else { l with lastPixel := none, underran := false }
    let stale (lane : LaneId) (underruns : Bool) (x : Burst) : Burst :=
      if underruns = true ∧ x.lane = lane ∧ x.row = e.sendRow then { x with stale := true } else x
    let sends (t : State) (px : Rgb) (underruns : Bool) (main : Lane) (old : Option Lane) (flight : List Burst) :
        Prop :=
      OtherTilesKept k s t ∧ OnlyIn [.tiles, .window] s t ∧
      t.tile k = { s.tile k with
        link := { b with sent := some ((s.tile k).scan.levelRgb s.prof.duskScale px) }
        engine := { e with
          main := onward main, old := old.map onward, flight := flight
          sendRow := if e.sendCol + 1 < w then e.sendRow else e.sendRow + 1
          sendCol := if e.sendCol + 1 < w then e.sendCol + 1 else 0
          underruns := if underruns = true ∧ e.main.underran = false ∧ (∀ o ∈ e.old, o.underran = false)
            then min (e.underruns + 1) 65535 else e.underruns } } ∧
      (underruns = false → t.window = s.window) ∧ (underruns = true → t.flag .underrun = true)
    (b.stepped = true ∨ (e.active = false ∧ h ≤ b.blackRow) ∨ (e.active = true ∧ h ≤ e.sendRow) →
      exec (.linkTakesPixel k) s = .next s) ∧
    (b.stepped = false → e.active = false → b.blackRow < h →
      ∃ t, exec (.linkTakesPixel k) s = .next t ∧ OnlyIn [.tiles] s t ∧ OtherTilesKept k s t ∧
        (b.blackCol + 1 < w → t.tile k = { s.tile k with link := { b with
          sent := some ⟨0, 0, 0⟩, blackCol := b.blackCol + 1 } }) ∧
        (w ≤ b.blackCol + 1 → t.tile k = { s.tile k with link := { b with
          sent := some ⟨0, 0, 0⟩, blackRow := b.blackRow + 1, blackCol := 0 } })) ∧
    (b.stepped = false → e.active = true → e.sendRow < h → e.old = none →
      ∃ t px after u, exec (.linkTakesPixel k) s = .next t ∧
        LaneGives (fill e.main) e.sendRow e.sendCol e.main px after u ∧
        sends t px u after none (e.flight.map (stale .main u))) ∧
    (∀ o f, b.stepped = false → e.active = true → e.sendRow < h → e.old = some o → (s.tile k).scan.fade = some f →
      ∃ t x oldAfter v y mainAfter u, exec (.linkTakesPixel k) s = .next t ∧
        LaneGives (fill o) e.sendRow e.sendCol o x oldAfter v ∧
        LaneGives (fill e.main) e.sendRow e.sendCol e.main y mainAfter u ∧
        sends t
          { r := BitVec.ofNat 8 (mix x.r.toNat y.r.toNat f.n f.step)
            g := BitVec.ofNat 8 (mix x.g.toNat y.g.toNat f.n f.step)
            b := BitVec.ofNat 8 (mix x.b.toNat y.b.toNat f.n f.step) }
          (u || v) mainAfter (some oldAfter) ((e.flight.map (stale .old v)).map (stale .main u)))

/-- The words of a burst in flight that arrive join the back of their lane in address order, and those of a stale
burst are discarded, also once the fade whose old lane it was for has ended; a burst leaves the flight when its last
word has arrived (R118, R124). Which burst the words belong to, and how many arrive together, is the command's operand
(log entry 13). -/
def Obligations.BurstWordsJoinTheirLane : Prop :=
  ∀ (k : Nat) (i : Arrival) (b : Burst) (s : State), k < s.tiles.length → (s.tile k).engine.flight[i.burst]? = some b →
    (b.stale = true ∨ b.lane = .main ∨ (s.tile k).engine.old.isSome = true) →
    ∃ t, exec (.burstArrival k i) s = .next t ∧ OnlyIn [.tiles] s t ∧ OtherTilesKept k s t ∧
      (b.words.length ≤ i.count → (t.tile k).engine.flight = (s.tile k).engine.flight.eraseIdx i.burst) ∧
      (i.count < b.words.length → (t.tile k).engine.flight =
        (s.tile k).engine.flight.set i.burst { b with words := b.words.drop i.count }) ∧
      (t.tile k).scan = (s.tile k).scan ∧ (t.tile k).link = (s.tile k).link ∧
      (b.stale = true → ∀ id, (t.tile k).engine.lane id = (s.tile k).engine.lane id) ∧
      (b.stale = false → (t.tile k).engine.lane b.lane = { (s.tile k).engine.lane b.lane with
          words := ((s.tile k).engine.lane b.lane).words ++ (b.words.take i.count).map (fun w => ⟨b.row, w⟩) } ∧
        ∀ id, id ≠ b.lane → (t.tile k).engine.lane id = (s.tile k).engine.lane id)

/-! ## Event inputs -/

/-- An input becoming active with its filter in IDLE starts qualifying, or with width 0 is accepted at once, with the
effect of every accepted event, an armed entry among them judged by R67; one becoming inactive puts the filter back in
IDLE; while the Frame Timing Generator is stopped the inputs are not watched (R10 to R14, R67, R68, R70 to R72, R95).
That an entry appended as the oldest one is armed from its append on is the model's choice (log entry 48). -/
def Obligations.EventInputsAreFiltered : Prop :=
  ∀ (i : EventInput) (s : State),
    (s.pins.level i = false → s.ftg.running = true → s.ftg.filter i = .idle → 0 < s.prof.filterWidth i →
      ∃ t, exec (.eventInputActive i) s = .next t ∧ OnlyIn [.pins, .ftg] s t ∧ t.pins = s.pins.setLevel i true ∧
        t.ftg = s.ftg.setFilter i (.qualifying 0)) ∧
    (s.pins.level i = false → s.ftg.running = true → s.ftg.filter i = .idle → s.prof.filterWidth i = 0 →
      ∃ t, exec (.eventInputActive i) s = .next t ∧ OnlyIn [.pins, .ftg, .scheduler, .commit] s t ∧
        t.pins = s.pins.setLevel i true ∧ EventTaken i s t ∧
        (i = .trigger → t.ftg = { s.ftg with trigger := .waitInactive }) ∧
        (i = .pulse → t.ftg = { s.ftg with
          pulse := .waitInactive, alignPending := s.ftg.alignPending || s.prof.pulseAlign })) ∧
    (s.pins.level i = false → (s.ftg.running = false ∨ s.ftg.filter i ≠ .idle) →
      ∃ t, exec (.eventInputActive i) s = .next t ∧ OnlyIn [.pins] s t ∧ t.pins = s.pins.setLevel i true) ∧
    (s.ftg.running = true → ∃ t, exec (.eventInputInactive i) s = .next t ∧ OnlyIn [.pins, .ftg] s t ∧
      t.pins = s.pins.setLevel i false ∧ t.ftg = s.ftg.setFilter i .idle) ∧
    (s.ftg.running = false → ∃ t, exec (.eventInputInactive i) s = .next t ∧ OnlyIn [.pins] s t ∧
      t.pins = s.pins.setLevel i false)

/-- An accepted event (R10, R13, R14, R67, R68, R70 to R72, R95): in SHOWING it resolves an armed entry of its kind,
the oldest entry, unresolved, with now ≥ A − H, and gives it the derived V = t + 1 + H; a trigger that resolves none
lengthens a visible last committed scene with EXTEND and a dwell, in the Cue Scheduler and in the showing table. A
pulse never lengthens one, an event that does neither changes nothing there, and in no other wall state has an event
an effect; a pulse sets alignment pending with the pulse-align flag on. That an entry appended as the oldest one is
armed from its append on is the model's choice (log entry 48). -/
def Obligations.AcceptedEventsActOnTheQueue : Prop :=
  ∀ (i : EventInput) (s : State) (n : Nat), s.ftg.running = true → s.pins.level i = true →
    s.ftg.filter i = .qualifying n →
    ∃ t, exec (.filterWidthReached i) s = .next t ∧ OnlyIn [.ftg, .scheduler, .commit] s t ∧ EventTaken i s t ∧
      (i = .trigger → t.ftg = { s.ftg with trigger := .waitInactive }) ∧
      (i = .pulse → t.ftg = { s.ftg with
        pulse := .waitInactive, alignPending := s.ftg.alignPending || s.prof.pulseAlign })

/-! ## Ambient light -/

/-- A poll instant starts a read of the sensor while polling runs and none is in flight. A valid reading in AUTO mode,
with the sensor not at fault, joins the history and gives the average; the condition to change counts, and at the K-th
consecutive one the ambient state changes, AMBIENT is raised and the set change is handed on; in a forced mode nothing
is decided. A set change is placed in every tile's list at V − L_k when each has room, and otherwise waits; at each
later frame start it is tried again with V = now + H (R86, R89, R151, R153, R154, R157, R158). That a waiting request
is tried before the run of attempts, with the latencies that the links' actions of that frame start leave, is the
model's choice (log entry 8). -/
def Obligations.ReadingsDecideTheLevelSet : Prop :=
  (∀ s : State, s.ambient.polling = true → s.ambient.inFlight = none →
    ∃ t, exec .ambientPoll s = .next t ∧ OnlyIn [.ambient] s t ∧ t.ambient = { s.ambient with inFlight := some 0 }) ∧
  (∀ (x y : BitVec 8) (s : State), s.ambient.inFlight.isSome = true → s.prof.ambientMode = .auto →
    s.ambient.status ≠ .fault → ∃ t, exec (.sensorReading x y) s = .next t ∧
      OnlyIn [.ambient, .window, .commit, .tiles] s t ∧
      let r := x.toNat * 16 + y.toNat / 16
      let h := if s.ambient.history = [] then [r, r, r, r] else s.ambient.history.tail ++ [r]
      let avg := h.sum / 4
      t.ambient.inFlight = none ∧ t.ambient.history = h ∧ t.ambient.average = some avg ∧ t.ambient.failures = 0 ∧
      t.ambient.status = .good ∧
      LevelJudged avg s.ambient.confirm s t ∧ (t.ambient.level = s.ambient.level → OnlyIn [.ambient] s t)) ∧
  (∀ (x y : BitVec 8) (s : State), s.ambient.inFlight.isSome = true → s.prof.ambientMode ≠ .auto →
    s.ambient.status ≠ .fault → ∃ t, exec (.sensorReading x y) s = .next t ∧ OnlyIn [.ambient] s t ∧
      let r := x.toNat * 16 + y.toNat / 16
      let h := if s.ambient.history = [] then [r, r, r, r] else s.ambient.history.tail ++ [r]
      t.ambient = { s.ambient with inFlight := none, history := h, average := some (h.sum / 4), failures := 0,
                                   status := .good }) ∧
  ∀ (q : LevelRequest) (s : State), s.ftg.running = true → s.ftg.begun = false → s.commit.levelRequest = some q →
    ∃ t, exec .frameStart s = .next t ∧
      let waiting (u : State) (k : Nat) : Nat := (u.tile k).switches.countP (fun sw => sw.frame != s.now + 1)
      ((∀ k, k < s.prof.tiles → waiting s k < 16) →
        t.commit.levelRequest = none ∧ ∀ k, k < s.prof.tiles → k < s.tiles.length →
          ⟨s.now + 1 + s.horizon - ((t.tile k).link.latency.getD s.prof.lmax), .level q.set⟩ ∈ (t.tile k).switches) ∧
      ((∃ k, k < s.prof.tiles ∧ k < 16 ∧ 16 ≤ waiting s k ∧ (s.tile k).stopAt ≠ some (s.now + 1) ∧
          ∀ sw ∈ (s.tile k).switches, sw.frame = s.now + 1 → sw.isScene = false) →
        t.commit.levelRequest = some ⟨q.set, s.now + 1 + s.horizon⟩) ∧
      (∀ r, t.commit.levelRequest = some r →
        r = ⟨q.set, s.now + 1 + s.horizon⟩ ∧ ∃ k, k < s.prof.tiles ∧ 16 ≤ waiting t k)

/-- A failed read adds 1 to the failure count and changes neither history, average nor ambient state; at 8 the sensor
is at fault and AMBIENT is raised, and further failures change nothing; the first valid reading after a fault refills
the history, raises AMBIENT, and in AUTO mode is judged with the confirmation count at 0, so that it may be the first
of the K readings of a change; in a forced mode it decides nothing (R154 to R158). -/
def Obligations.SensorFaultsBeginAndEnd : Prop :=
  (∀ s : State, s.ambient.inFlight.isSome = true → ∃ t, exec .sensorReadFailure s = .next t ∧
    OnlyIn [.ambient, .window] s t ∧
    (s.ambient.status = .fault → t.ambient = { s.ambient with inFlight := none } ∧ t.window = s.window) ∧
    (s.ambient.status ≠ .fault → s.ambient.failures + 1 < 8 →
      t.ambient = { s.ambient with inFlight := none, failures := s.ambient.failures + 1 } ∧ t.window = s.window) ∧
    (s.ambient.status ≠ .fault → 8 ≤ s.ambient.failures + 1 →
      t.ambient = { s.ambient with inFlight := none, failures := 8, status := .fault, confirm := 0 } ∧
      t.flag .ambient = true)) ∧
  (∀ (x y : BitVec 8) (s : State), s.ambient.inFlight.isSome = true → s.ambient.status = .fault →
    ∃ t, exec (.sensorReading x y) s = .next t ∧
      let r := x.toNat * 16 + y.toNat / 16
      OnlyIn [.ambient, .window, .commit, .tiles] s t ∧ t.ambient.inFlight = none ∧
      t.ambient.history = [r, r, r, r] ∧ t.ambient.average = some r ∧ t.ambient.failures = 0 ∧
      t.ambient.status = .good ∧ t.flag .ambient = true ∧
      (s.prof.ambientMode = .auto → LevelJudged r 0 s t) ∧
      (s.prof.ambientMode ≠ .auto →
        t.ambient.level = s.ambient.level ∧ t.ambient.confirm = 0 ∧ OnlyIn [.ambient, .window] s t))

/-! ## The settings store -/

/-- A byte write that succeeds is in the EEPROM and the image copy, and the job's next write begins or the job ends
DONE; one that fails leaves the byte unknown in the copy and ends the job FAILED, the EEPROM's other bytes as they
were, and a profile write or invalidation leaves no marker that passes its check. At a job's end the slot is empty,
the controller IDLE, the store result set and new for the refresh, and a CMD result that waited for it DONE. A PERSIST
TRIM cue's job is placed at the frame start of its V: the writes of the image with the cue's codes put in, an end at
once with NO_IMAGE for an image that is not valid, and a refusal while the slot is taken (R94, R162, R163, R169 to
R173, R182). The free value a failed write leaves, and an end at once where no byte changes, are the model's (log
entries 3 and 31). -/
def Obligations.ByteWritesCarryTheJob : Prop :=
  (∀ (d : DueEntry) (entries : List TrimEntry) (s : State), s.ftg.running = true → s.ftg.begun = false →
    d.body = .trim entries → s.store.job = none →
    s.commit.due.filter (fun x => x.visible == s.now + 1 && x.persist &&
      (match x.body with | .trim _ => true | .scene _ | .clock _ | .mark _ => false)) = [d] →
    let writes := contentWrites s.store.image (trimContent s.store.image entries)
    ∃ t, exec .frameStart s = .next t ∧
      Handed d.record (if d.keep then .keepShown d.visible d.slip d.late false
        else .done d.visible d.slip d.late false) t ∧
      (s.store.valid = false → t.store = { s.store with state := .idle, result := some (.trim, .noImage) } ∧
        (untilRefresh s).report.resultNew = true) ∧
      (s.store.valid = true → writes ≠ [] →
        t.store = { s.store with job := some ⟨.trim, writes⟩, state := .writing } ∧
        (untilRefresh s).report.resultNew = s.report.resultNew) ∧
      (s.store.valid = true → writes = [] →
        t.store = { s.store with state := .idle, result := some (.trim, .done) } ∧
        (untilRefresh s).report.resultNew = true)) ∧
  (∀ s : State, s.ftg.running = true → s.ftg.begun = false → s.store.job.isSome = true →
    ∃ t, exec .frameStart s = .next t ∧ t.store = s.store ∧
      (untilRefresh s).report.resultNew = s.report.resultNew) ∧
  (∀ (image : List (Option Byte)) (entries : List TrimEntry), image.length = 512 → (entries.map (·.tile)).Nodup →
    (∀ e ∈ entries, e.tile < 16) →
    let c := trimContent image entries
    c.length = 512 ∧
    (∀ e ∈ entries, (∀ v, e.street = some v → c.getD (98 + 2 * e.tile) 0 = BitVec.ofNat 8 v) ∧
      (∀ v, e.dusk = some v → c.getD (99 + 2 * e.tile) 0 = BitVec.ofNat 8 v)) ∧
    ∀ p, (∀ e ∈ entries, (e.street ≠ none → p ≠ 98 + 2 * e.tile) ∧ (e.dusk ≠ none → p ≠ 99 + 2 * e.tile)) →
      c.getD p 0 = (image.getD p none).getD 0) ∧
  ∀ (kind : JobKind) (p : Nat) (v : Byte) (rest : List (Nat × Byte)) (s : State),
    s.store.job = some ⟨kind, (p, v) :: rest⟩ →
    (rest ≠ [] → ∃ t, exec .byteWriteDone s = .next t ∧ OnlyIn [.store] s t ∧
      t.store = { s.store with eeprom := s.store.eeprom.set p v, image := s.store.image.set p (some v),
                               valid := imageValid (s.store.image.set p (some v)), job := some ⟨kind, rest⟩ }) ∧
    (rest = [] → ∃ t, exec .byteWriteDone s = .next t ∧ OnlyIn [.store, .report, .window] s t ∧
      t.store = { s.store with eeprom := s.store.eeprom.set p v, image := s.store.image.set p (some v),
                               valid := imageValid (s.store.image.set p (some v)), job := none, state := .idle,
                               result := some (kind, .done) } ∧
      t.report = { s.report with resultNew := true } ∧
      (kind = .invalidate → s.window.main = some ⟨7, .busy⟩ → t.window.main = some ⟨7, .done⟩) ∧
      (kind = .profile → s.window.main = some ⟨1, .busy⟩ → t.window.main = some ⟨1, .done⟩)) ∧
    (∃ t, exec .byteWriteFailed s = .next t ∧ OnlyIn [.store, .report, .window, .freeIndex] s t ∧
      t.store.image = s.store.image.set p none ∧ t.store.job = none ∧ t.store.state = .idle ∧
      t.store.valid = imageValid (s.store.image.set p none) ∧ t.store.result = some (kind, .failed) ∧
      t.report = { s.report with resultNew := true } ∧
      (p < s.store.image.length → t.store.valid = false) ∧
      (∀ j, j ≠ p → t.store.eeprom.getD j 0 = s.store.eeprom.getD j 0) ∧
      (kind ≠ .trim → p = 0 → 0 < s.store.eeprom.length → t.store.eeprom.getD 0 0 ≠ 0xA5) ∧
      (kind = .invalidate → s.window.main = some ⟨7, .busy⟩ → t.window.main = some ⟨7, .done⟩) ∧
      (kind = .profile → s.window.main = some ⟨1, .busy⟩ → t.window.main = some ⟨1, .done⟩))

end
end

