-- ==== Sys2Proof/Laws/Frames.lean ====
section
/-! SUPPORT. What each shared operation changes: for every operation one lemma that names the only parts of the state it
can change. A claim cites it, by the projections of `OnlyIn`, and unfolds no operation. -/

set_option Elab.async false

namespace Sys2Proof.Machine

/-! ## The relation -/

theorem OnlyIn.refl (parts : List Part) (s : State) : OnlyIn parts s s := by
  intro p _
  cases p <;> rfl

theorem OnlyIn.mono {ps qs : List Part} {s t : State} (h : OnlyIn ps s t) (hsub : ps ⊆ qs) : OnlyIn qs s t :=
  fun p hp => h p (fun hm => hp (hsub hm))

theorem OnlyIn.trans {ps : List Part} {s t u : State} (h : OnlyIn ps s t) (k : OnlyIn ps t u) : OnlyIn ps s u := by
  intro p hp
  have h1 := h p hp
  have h2 := k p hp
  cases p <;> exact h2.trans h1

theorem OnlyIn.mem {ps : List Part} {s t : State} (h : OnlyIn ps s t) (hp : Part.mem ∉ ps := by decide) :
    t.mem = s.mem := h .mem hp
theorem OnlyIn.profile {ps : List Part} {s t : State} (h : OnlyIn ps s t) (hp : Part.profile ∉ ps := by decide) :
    t.profile = s.profile := h .profile hp
theorem OnlyIn.ftg {ps : List Part} {s t : State} (h : OnlyIn ps s t) (hp : Part.ftg ∉ ps := by decide) :
    t.ftg = s.ftg := h .ftg hp
theorem OnlyIn.follower {ps : List Part} {s t : State} (h : OnlyIn ps s t) (hp : Part.follower ∉ ps := by decide) :
    t.follower = s.follower := h .follower hp
theorem OnlyIn.scheduler {ps : List Part} {s t : State} (h : OnlyIn ps s t) (hp : Part.scheduler ∉ ps := by decide) :
    t.scheduler = s.scheduler := h .scheduler hp
theorem OnlyIn.commit {ps : List Part} {s t : State} (h : OnlyIn ps s t) (hp : Part.commit ∉ ps := by decide) :
    t.commit = s.commit := h .commit hp
theorem OnlyIn.tiles {ps : List Part} {s t : State} (h : OnlyIn ps s t) (hp : Part.tiles ∉ ps := by decide) :
    t.tiles = s.tiles := h .tiles hp
theorem OnlyIn.arbiter {ps : List Part} {s t : State} (h : OnlyIn ps s t) (hp : Part.arbiter ∉ ps := by decide) :
    t.arbiter = s.arbiter := h .arbiter hp
theorem OnlyIn.port {ps : List Part} {s t : State} (h : OnlyIn ps s t) (hp : Part.port ∉ ps := by decide) :
    t.port = s.port := h .port hp
theorem OnlyIn.ambient {ps : List Part} {s t : State} (h : OnlyIn ps s t) (hp : Part.ambient ∉ ps := by decide) :
    t.ambient = s.ambient := h .ambient hp
theorem OnlyIn.store {ps : List Part} {s t : State} (h : OnlyIn ps s t) (hp : Part.store ∉ ps := by decide) :
    t.store = s.store := h .store hp
theorem OnlyIn.report {ps : List Part} {s t : State} (h : OnlyIn ps s t) (hp : Part.report ∉ ps := by decide) :
    t.report = s.report := h .report hp
theorem OnlyIn.window {ps : List Part} {s t : State} (h : OnlyIn ps s t) (hp : Part.window ∉ ps := by decide) :
    t.window = s.window := h .window hp
theorem OnlyIn.pins {ps : List Part} {s t : State} (h : OnlyIn ps s t) (hp : Part.pins ∉ ps := by decide) :
    t.pins = s.pins := h .pins hp
theorem OnlyIn.freeIndex {ps : List Part} {s t : State} (h : OnlyIn ps s t) (hp : Part.freeIndex ∉ ps := by decide) :
    t.freeIndex = s.freeIndex := h .freeIndex hp
theorem OnlyIn.pending {ps : List Part} {s t : State} (h : OnlyIn ps s t) (hp : Part.pending ∉ ps := by decide) :
    t.pending = s.pending := h .pending hp

/-! ## The updates -/

theorem onlyIn_setMem (s : State) (x) : OnlyIn [.mem] s (s.setMem x) := by
  intro p hp
  cases p <;> first | rfl | exact absurd (by decide) hp
theorem onlyIn_setProfile (s : State) (x) : OnlyIn [.profile] s (s.setProfile x) := by
  intro p hp
  cases p <;> first | rfl | exact absurd (by decide) hp
theorem onlyIn_setFtg (s : State) (x) : OnlyIn [.ftg] s (s.setFtg x) := by
  intro p hp
  cases p <;> first | rfl | exact absurd (by decide) hp
theorem onlyIn_setFollower (s : State) (x) : OnlyIn [.follower] s (s.setFollower x) := by
  intro p hp
  cases p <;> first | rfl | exact absurd (by decide) hp
theorem onlyIn_setScheduler (s : State) (x) : OnlyIn [.scheduler] s (s.setScheduler x) := by
  intro p hp
  cases p <;> first | rfl | exact absurd (by decide) hp
theorem onlyIn_setCommit (s : State) (x) : OnlyIn [.commit] s (s.setCommit x) := by
  intro p hp
  cases p <;> first | rfl | exact absurd (by decide) hp
theorem onlyIn_setTiles (s : State) (x) : OnlyIn [.tiles] s (s.setTiles x) := by
  intro p hp
  cases p <;> first | rfl | exact absurd (by decide) hp
theorem onlyIn_setArbiter (s : State) (x) : OnlyIn [.arbiter] s (s.setArbiter x) := by
  intro p hp
  cases p <;> first | rfl | exact absurd (by decide) hp
theorem onlyIn_setPort (s : State) (x) : OnlyIn [.port] s (s.setPort x) := by
  intro p hp
  cases p <;> first | rfl | exact absurd (by decide) hp
theorem onlyIn_setAmbient (s : State) (x) : OnlyIn [.ambient] s (s.setAmbient x) := by
  intro p hp
  cases p <;> first | rfl | exact absurd (by decide) hp
theorem onlyIn_setStore (s : State) (x) : OnlyIn [.store] s (s.setStore x) := by
  intro p hp
  cases p <;> first | rfl | exact absurd (by decide) hp
theorem onlyIn_setReport (s : State) (x) : OnlyIn [.report] s (s.setReport x) := by
  intro p hp
  cases p <;> first | rfl | exact absurd (by decide) hp
theorem onlyIn_setWindow (s : State) (x) : OnlyIn [.window] s (s.setWindow x) := by
  intro p hp
  cases p <;> first | rfl | exact absurd (by decide) hp
theorem onlyIn_setPins (s : State) (x) : OnlyIn [.pins] s (s.setPins x) := by
  intro p hp
  cases p <;> first | rfl | exact absurd (by decide) hp
theorem onlyIn_setFreeIndex (s : State) (x) : OnlyIn [.freeIndex] s (s.setFreeIndex x) := by
  intro p hp
  cases p <;> first | rfl | exact absurd (by decide) hp
theorem onlyIn_setPending (s : State) (x) : OnlyIn [.pending] s (s.setPending x) := by
  intro p hp
  cases p <;> first | rfl | exact absurd (by decide) hp

theorem OnlyIn.comp {ps qs rs : List Part} {s t u : State} (h : OnlyIn ps s t) (k : OnlyIn qs t u)
    (h1 : ps ⊆ rs := by decide) (h2 : qs ⊆ rs := by decide) : OnlyIn rs s u :=
  (h.mono h1).trans (k.mono h2)

theorem onlyIn_ite {ps : List Part} {s t u : State} {c : Prop} [Decidable c] (h : OnlyIn ps s t) (k : OnlyIn ps s u) :
    OnlyIn ps s (if c then t else u) := by
  split
  · exact h
  · exact k

theorem onlyIn_foldl {α : Type} {ps : List Part} (f : State → α → State) (h : ∀ s x, OnlyIn ps s (f s x)) (l : List α)
    (s : State) : OnlyIn ps s (l.foldl f s) := by
  induction l generalizing s with
  | nil => exact .refl _ _
  | cons x rest ih => exact (h s x).trans (ih _)

theorem onlyIn_forTiles {ps : List Part} (n : Nat) (f : Nat → State → State) (h : ∀ k s, OnlyIn ps s (f k s))
    (s : State) : OnlyIn ps s (forTiles n f s) :=
  onlyIn_foldl (fun s k => f k s) (fun s k => h k s) _ s

theorem onlyIn_setTile (k : Nat) (t : Tile) (s : State) : OnlyIn [.tiles] s (s.setTile k t) := onlyIn_setTiles s _

theorem onlyIn_updTile (k : Nat) (f : Tile → Tile) (s : State) : OnlyIn [.tiles] s (s.updTile k f) :=
  onlyIn_setTile k _ s

/-! ## Attention and the write queue -/

theorem onlyIn_raise (c : Cause) (s : State) : OnlyIn [.window] s (raise c s) := onlyIn_setWindow s _

theorem onlyIn_dryEdge {ps : List Part} (before : State) {s t : State} (h : OnlyIn ps s t) (hw : [.window] ⊆ ps) :
    OnlyIn ps s (dryEdge before t) := by
  unfold dryEdge
  exact onlyIn_ite (h.trans ((onlyIn_raise .dry t).mono hw)) h

theorem onlyIn_enqueue (item : QueueItem) (s : State) : OnlyIn [.report] s (enqueue item s) := onlyIn_setReport s _

theorem onlyIn_enqueueOutcome (record : Nat) (kind : OutcomeKind) (s : State) :
    OnlyIn [.report] s (enqueueOutcome record kind s) := onlyIn_enqueue _ s

theorem onlyIn_handOn (record : Nat) (kind : OutcomeKind) (s : State) :
    OnlyIn [.report, .commit] s (handOn record kind s) :=
  onlyIn_ite ((onlyIn_enqueueOutcome record kind s).mono (by decide)) ((onlyIn_setCommit s _).mono (by decide))

theorem onlyIn_reportHold (f : FaultRecord) (s : State) : OnlyIn [.report] s (reportHold f s) :=
  onlyIn_ite (onlyIn_enqueue _ s) (onlyIn_setReport s _)

theorem onlyIn_followerOnLeave (s : State) : OnlyIn [.follower] s (followerOnLeave s) := by
  unfold followerOnLeave
  (repeat' split) <;> first | exact .refl _ _ | exact onlyIn_setFollower s _

theorem onlyIn_followerOnLanded (s : State) : OnlyIn [.follower] s (followerOnLanded s) := by
  unfold followerOnLanded
  (repeat' split) <;> first | exact .refl _ _ | exact onlyIn_setFollower s _

/-! ## The Cue Scheduler -/

theorem onlyIn_mapQueue (f : Entry → Entry) (s : State) : OnlyIn [.scheduler] s (mapQueue f s) := onlyIn_setScheduler s _

theorem onlyIn_fixTargets (s : State) : OnlyIn [.scheduler] s (fixTargets s) := onlyIn_mapQueue _ s

theorem onlyIn_appendEntry (c : Cue) (s : State) : OnlyIn [.scheduler] s (appendEntry c s) := onlyIn_setScheduler s _

theorem onlyIn_clockCommitted (record v : Nat) (s : State) : OnlyIn [.scheduler] s (clockCommitted record v s) :=
  onlyIn_mapQueue _ s

theorem onlyIn_leaveQueue (record : Nat) (s : State) : OnlyIn [.scheduler, .follower] s (leaveQueue record s) :=
  ((onlyIn_setScheduler s _).trans (onlyIn_fixTargets _)).comp (onlyIn_followerOnLeave _)

theorem onlyIn_receiveDeparting (s : State) : OnlyIn [.scheduler, .follower, .report] s (receiveDeparting s) := by
  unfold receiveDeparting
  split
  · exact .refl _ _
  · exact onlyIn_ite ((onlyIn_enqueueOutcome _ _ s).comp (onlyIn_leaveQueue _ _)) (.refl _ _)

theorem onlyIn_drainDeparting (n : Nat) (s : State) :
    OnlyIn [.scheduler, .follower, .report] s (drainDeparting n s) := by
  induction n generalizing s with
  | zero => exact .refl _ _
  | succ n ih => exact (onlyIn_receiveDeparting s).trans (ih _)

theorem onlyIn_depart (pick : Entry → Bool) (why : Departure) (s : State) :
    OnlyIn [.scheduler, .follower, .report] s (depart pick why s) :=
  (onlyIn_mapQueue _ s).comp (onlyIn_drainDeparting _ _)

theorem onlyIn_withdrawAll (s : State) : OnlyIn [.scheduler, .follower, .report] s (withdrawAll s) := onlyIn_depart _ _ s

theorem onlyIn_skipWaits (records : List Nat) (s : State) :
    OnlyIn [.scheduler, .follower, .report] s (skipWaits records s) := onlyIn_depart _ _ s

theorem onlyIn_resolveWait (record : Nat) (s : State) : OnlyIn [.scheduler] s (resolveWait record s) :=
  onlyIn_mapQueue _ s

theorem onlyIn_extendScene (l : LastScene) (s : State) : OnlyIn [.scheduler, .commit] s (extendScene l s) :=
  (onlyIn_setScheduler s _).comp (onlyIn_setCommit _ _)

theorem onlyIn_triggerEvent (s : State) : OnlyIn [.scheduler, .commit] s (triggerEvent s) := by
  unfold triggerEvent
  (repeat' split) <;> first
    | exact .refl _ _
    | exact (onlyIn_resolveWait _ s).mono (by decide)
    | exact onlyIn_extendScene _ s

theorem onlyIn_pulseEvent (s : State) : OnlyIn [.scheduler] s (pulseEvent s) := by
  unfold pulseEvent
  (repeat' split) <;> first | exact .refl _ _ | exact onlyIn_resolveWait _ s

theorem onlyIn_setAnchor (s : State) : OnlyIn [.scheduler] s (setAnchor s) := onlyIn_setScheduler s _

/-! ## The Chain Follower -/

theorem onlyIn_enterHold (reason : HoldReason) (position : HoldPosition) (address : Nat) (s : State) :
    OnlyIn [.follower] s (enterHold reason position address s) := onlyIn_setFollower s _

theorem onlyIn_endFollowing (s : State) : OnlyIn [.follower] s (endFollowing s) := onlyIn_setFollower s _

theorem onlyIn_followFrom (address : Nat) (s : State) : OnlyIn [.follower, .report] s (followFrom address s) :=
  onlyIn_ite ((onlyIn_enterHold _ _ _ s).comp (onlyIn_reportHold _ _)) ((onlyIn_setFollower s _).mono (by decide))

theorem onlyIn_takeLink (address link : Nat) (s : State) : OnlyIn [.follower] s (takeLink address link s) :=
  onlyIn_ite (onlyIn_setFollower s _) (onlyIn_setFollower s _)

theorem onlyIn_judgeRecord (address : Nat) (r : List Byte) (s : State) :
    OnlyIn [.follower, .report, .scheduler] s (judgeRecord address r s) := by
  unfold judgeRecord
  split
  · exact ((onlyIn_takeLink _ _ s).comp ((onlyIn_enqueueOutcome _ _ _).trans (onlyIn_enqueue _ _)))
  · exact ((onlyIn_takeLink _ _ s).comp (rs := [.follower, .scheduler]) (onlyIn_appendEntry _ _)).comp
      (onlyIn_enqueueOutcome _ _ _)

theorem onlyIn_pollLink (s : State) : OnlyIn [.follower] s (pollLink s) := onlyIn_ite (onlyIn_setFollower s _) (.refl _ _)

theorem onlyIn_resumeFollowing (s : State) : OnlyIn [.follower, .report] s (resumeFollowing s) := by
  unfold resumeFollowing
  split
  · exact (onlyIn_setFollower s _).mono (by decide)
  · exact onlyIn_followFrom _ s
  · exact (onlyIn_setFollower s _).mono (by decide)

theorem onlyIn_fetchBegin (s : State) : OnlyIn [.follower] s (fetchBegin s) := by
  unfold fetchBegin
  (repeat' split) <;> first | exact .refl _ _ | exact onlyIn_setFollower s _

theorem onlyIn_recordArrived (s : State) : OnlyIn [.follower, .report, .scheduler] s (recordArrived s) := by
  unfold recordArrived
  simp only
  (repeat' split) <;> first
    | exact .refl _ _
    | exact onlyIn_judgeRecord _ _ s
    | exact (onlyIn_setFollower s _).mono (by decide)
    | exact (onlyIn_enterHold _ _ _ s).comp (onlyIn_enqueue _ _)

theorem onlyIn_linkReturned (s : State) : OnlyIn [.follower, .report] s (linkReturned s) := by
  unfold linkReturned
  (repeat' split) <;> first
    | exact .refl _ _
    | exact (onlyIn_setFollower s _).mono (by decide)
    | exact (onlyIn_enterHold _ _ _ s).comp (onlyIn_reportHold _ _)

/-! ## Pixels and links -/

theorem onlyIn_linkTakesPixel (k : Nat) (s : State) : OnlyIn [.tiles, .window] s (linkTakesPixel k s) := by
  unfold linkTakesPixel
  (repeat' split) <;> first
    | exact .refl _ _
    | exact (onlyIn_updTile k _ s).mono (by decide)
    | exact onlyIn_ite ((onlyIn_setTile k _ s).comp (onlyIn_raise _ _)) ((onlyIn_setTile k _ s).mono (by decide))

theorem onlyIn_burstArrives (k : Nat) (a : Arrival) (s : State) : OnlyIn [.tiles] s (burstArrives k a s) := by
  unfold burstArrives
  split
  · exact .refl _ _
  · exact onlyIn_updTile k _ s

theorem onlyIn_stepLink (k : Nat) (s : State) : OnlyIn [.tiles, .window] s (stepLink k s) := by
  unfold stepLink
  simp only
  exact onlyIn_ite ((onlyIn_setTile k _ s).comp (onlyIn_raise _ _)) ((onlyIn_setTile k _ s).mono (by decide))

theorem onlyIn_stepLinkUnlessDone (k : Nat) (s : State) : OnlyIn [.tiles, .window] s (stepLinkUnlessDone k s) := by
  unfold stepLinkUnlessDone
  (repeat' split) <;> first
    | exact .refl _ _
    | exact (onlyIn_updTile k _ s).mono (by decide)
    | exact onlyIn_stepLink k s

theorem onlyIn_linkAhead (event : LinkEvent) (k : Nat) (s : State) : OnlyIn [.tiles, .window] s (linkAhead event k s) :=
  onlyIn_ite ((onlyIn_stepLink k s).comp (onlyIn_updTile k _ _)) (.refl _ _)

theorem onlyIn_takeEcho (k : Nat) (tag : Byte) (s : State) : OnlyIn [.tiles] s (takeEcho k tag s) :=
  onlyIn_ite (onlyIn_updTile k _ s) (.refl _ _)

theorem onlyIn_takeDescriptor (k : Nat) (d : PanelDescriptor) (s : State) :
    OnlyIn [.tiles, .window] s (takeDescriptor k d s) :=
  onlyIn_ite
    (onlyIn_ite ((onlyIn_updTile k _ s).mono (by decide)) ((onlyIn_updTile k _ s).comp (onlyIn_raise _ _)))
    (.refl _ _)

/-! ## The settings store -/

theorem onlyIn_endJob (kind : JobKind) (outcome : JobOutcome) (s : State) :
    OnlyIn [.store, .report, .window] s (endJob kind outcome s) := by
  unfold endJob
  simp only
  split
  · exact ((onlyIn_setStore s _).comp (rs := [.store, .report]) (onlyIn_setReport _ _)).comp (onlyIn_setWindow _ _)
  · exact (onlyIn_setStore s _).comp (onlyIn_setReport _ _)

theorem onlyIn_placeJob (kind : JobKind) (writes : List (Nat × Byte)) (s : State) :
    OnlyIn [.store, .report, .window] s (placeJob kind writes s) :=
  onlyIn_ite (onlyIn_endJob kind .done s) ((onlyIn_setStore s _).mono (by decide))

theorem onlyIn_offerTrimJob (entries : List TrimEntry) (s : State) :
    OnlyIn [.store, .report, .window] s (offerTrimJob entries s).1 := by
  unfold offerTrimJob
  split
  · exact .refl _ _
  · split
    · dsimp only
      exact onlyIn_placeJob _ _ s
    · dsimp only
      exact onlyIn_endJob _ _ s

theorem onlyIn_byteWritten (s : State) : OnlyIn [.store, .report, .window] s (byteWritten s) := by
  unfold byteWritten
  (repeat' split) <;> first
    | exact .refl _ _
    | exact (onlyIn_setStore s _).comp (onlyIn_endJob _ _ _)
    | exact ((onlyIn_setStore s _).trans (onlyIn_setStore _ _)).mono (by decide)

theorem onlyIn_byteFailed (s : State) : OnlyIn [.store, .report, .window, .freeIndex] s (byteFailed s) := by
  unfold byteFailed
  (repeat' split) <;> first
    | exact .refl _ _
    | exact ((onlyIn_setStore s _).comp (rs := [.store, .freeIndex]) (onlyIn_setFreeIndex _ _)).comp
        (onlyIn_endJob _ _ _)

/-! ## The Commit Unit -/

theorem onlyIn_placeSwitch (k visible : Nat) (body : SwitchBody) (s : State) :
    OnlyIn [.tiles] s (placeSwitch k visible body s) := onlyIn_updTile k _ s

theorem onlyIn_countCommit (s : State) : OnlyIn [.commit] s (countCommit s) := onlyIn_setCommit s _

theorem onlyIn_tryLevelRequest (s : State) : OnlyIn [.commit, .tiles] s (tryLevelRequest s) := by
  unfold tryLevelRequest
  split
  · exact .refl _ _
  · refine onlyIn_ite ?_ (.refl _ _)
    exact ((onlyIn_setCommit s _).trans (onlyIn_countCommit _)).comp
      (onlyIn_forTiles _ _ (fun k s => onlyIn_placeSwitch k _ _ s) _)

theorem onlyIn_requestLevel (set : LevelSet) (s : State) : OnlyIn [.commit, .tiles] s (requestLevel set s) :=
  (onlyIn_setCommit s _).comp (onlyIn_tryLevelRequest _)

theorem onlyIn_retryLevelRequest (s : State) : OnlyIn [.commit, .tiles] s (retryLevelRequest s) := by
  unfold retryLevelRequest
  split
  · exact .refl _ _
  · exact onlyIn_requestLevel _ s

theorem onlyIn_sceneTaken (k : Nat) (id : PassId) (s : State) : OnlyIn [.commit, .tiles] s (sceneTaken k id s) :=
  (onlyIn_setCommit s _).comp (onlyIn_updTile k _ _)

theorem onlyIn_takeSwitch (k : Nat) (s : State) (sw : Switch) : OnlyIn [.commit, .tiles] s (takeSwitch k s sw) := by
  unfold takeSwitch
  split
  · exact (onlyIn_updTile k _ s).comp (onlyIn_sceneTaken k _ _)
  · exact (onlyIn_updTile k _ s).mono (by decide)
  · exact (onlyIn_updTile k _ s).mono (by decide)

theorem onlyIn_takeStop (k : Nat) (s : State) : OnlyIn [.commit, .tiles] s (takeStop k s) :=
  onlyIn_ite ((onlyIn_updTile k _ s).comp (onlyIn_setCommit _ _)) (.refl _ _)

theorem onlyIn_scanTile (k : Nat) (s : State) : OnlyIn [.commit, .tiles] s (scanTile k s) :=
  ((onlyIn_updTile k _ s).comp (onlyIn_foldl _ (fun s sw => onlyIn_takeSwitch k s sw) _ _)).trans (onlyIn_takeStop k _)

theorem onlyIn_showScene (e : ShowEntry) (s : State) : OnlyIn [.commit, .report] s (showScene e s) :=
  (onlyIn_setCommit s _).comp (onlyIn_handOn _ _ _)

theorem onlyIn_dueEffect (e : DueEntry) (s : State) : OnlyIn [.store, .report, .window] s (dueEffect e s).1 := by
  unfold dueEffect
  (repeat' split) <;> first
    | exact .refl _ _
    | exact (onlyIn_setReport s _).mono (by decide)
    | exact onlyIn_offerTrimJob _ s

theorem onlyIn_completeDue (e : DueEntry) (s : State) :
    OnlyIn [.commit, .store, .report, .window] s (completeDue e s) :=
  ((onlyIn_setCommit s _).comp (rs := [.commit, .store, .report, .window]) (onlyIn_dueEffect e _)).comp
    (onlyIn_handOn _ _ _)

theorem onlyIn_completeReaching (s : State) (x : Reaching) :
    OnlyIn [.commit, .store, .report, .window] s (completeReaching s x) := by
  unfold completeReaching
  split
  · exact (onlyIn_showScene _ s).mono (by decide)
  · exact onlyIn_completeDue _ s

theorem onlyIn_releaseScenes (s : State) : OnlyIn [.commit, .report] s (releaseScenes s) := by
  refine ((onlyIn_setCommit s _).mono (by decide)).trans (onlyIn_foldl _ (fun s e => ?_) _ _)
  exact onlyIn_ite (.refl _ _) ((onlyIn_handOn _ _ s).mono (by decide))

theorem onlyIn_completeStop (s : State) : OnlyIn [.commit, .window] s (completeStop s) :=
  onlyIn_ite ((onlyIn_setCommit s _).comp (onlyIn_setWindow _ _)) (.refl _ _)

theorem onlyIn_leaveCommitted (record v : Nat) (s : State) :
    OnlyIn [.scheduler, .follower] s (leaveCommitted record v s) :=
  (onlyIn_setScheduler s _).comp (onlyIn_leaveQueue _ _)

theorem onlyIn_commitScene (v : Eval) (visible : Nat) (a : Attempt) (l : List Assignment) (s : State) :
    OnlyIn [.commit, .tiles, .report, .scheduler, .follower] s (commitScene v visible a l s) := by
  unfold commitScene
  simp only
  refine OnlyIn.comp (ps := [.commit, .tiles, .report, .scheduler]) ?_ (onlyIn_leaveCommitted _ _ _)
  refine OnlyIn.comp (ps := [.commit, .tiles, .report]) ?_ (onlyIn_setScheduler _ _)
  refine OnlyIn.comp (ps := [.commit, .tiles]) ?_ (onlyIn_enqueueOutcome _ _ _)
  refine OnlyIn.comp (ps := [.commit]) ?_ (onlyIn_foldl _ (fun s x => onlyIn_placeSwitch _ _ _ s) _ _)
  exact (onlyIn_countCommit s).trans (onlyIn_setCommit _ _)

theorem onlyIn_placeDue (c : Cue) (visible : Nat) (s : State) :
    OnlyIn [.tiles, .ftg, .scheduler] s (placeDue c visible s) := by
  unfold placeDue
  split
  · exact (onlyIn_foldl _ (fun s x => onlyIn_placeSwitch _ _ _ s) _ s).mono (by decide)
  · exact (onlyIn_setFtg s _).comp (onlyIn_clockCommitted _ _ _)
  · exact .refl _ _
  · exact .refl _ _

theorem onlyIn_commitDue (v : Eval) (visible : Nat) (s : State) :
    OnlyIn [.commit, .tiles, .ftg, .scheduler, .follower] s (commitDue v visible s) := by
  unfold commitDue
  simp only
  refine OnlyIn.comp (ps := [.commit, .tiles, .ftg, .scheduler]) ?_ (onlyIn_leaveCommitted _ _ _)
  exact OnlyIn.comp (ps := [.commit]) ((onlyIn_countCommit s).trans (onlyIn_setCommit _ _)) (onlyIn_placeDue _ _ _)

theorem onlyIn_attemptRun (n : Nat) (s : State) :
    OnlyIn [.commit, .tiles, .ftg, .scheduler, .follower] s (attemptRun n s) := by
  induction n generalizing s with
  | zero => exact .refl _ _
  | succ n ih =>
    unfold attemptRun
    (repeat' split) <;> first
      | exact .refl _ _
      | exact (onlyIn_setCommit s _).mono (by decide)
      | exact (onlyIn_commitDue _ _ s).trans (ih _)

theorem onlyIn_endAttempt (s : State) : OnlyIn [.commit] s (endAttempt s) := onlyIn_setCommit s _

theorem onlyIn_refusePlate (record position index : Nat) (s : State) :
    OnlyIn [.report, .scheduler, .follower] s (refusePlate record position index s) :=
  ((onlyIn_enqueueOutcome _ _ s).trans (onlyIn_enqueue _ _)).comp (onlyIn_leaveQueue _ _)

theorem onlyIn_skipNotReady (v : Eval) (s : State) :
    OnlyIn [.report, .scheduler, .follower] s (skipNotReady v s) :=
  (onlyIn_enqueueOutcome _ _ s).comp (onlyIn_leaveQueue _ _)

theorem onlyIn_chargeSlack (record : Nat) (s : State) : OnlyIn [.scheduler] s (chargeSlack record s) :=
  onlyIn_mapQueue _ s

theorem onlyIn_decideScene (v : Eval) (a : Attempt) (l : List Assignment) (s : State) :
    OnlyIn [.commit, .tiles, .ftg, .scheduler, .follower, .report] s (decideScene v a l s) := by
  unfold decideScene
  simp only
  split
  · exact (onlyIn_refusePlate _ _ _ s).comp (onlyIn_attemptRun _ _)
  · split
    · split
      · exact (onlyIn_commitScene _ _ _ _ s).comp (onlyIn_attemptRun _ _)
      · exact .refl _ _
    · split
      · exact (onlyIn_chargeSlack _ s).mono (by decide)
      · exact (onlyIn_skipNotReady _ s).comp (onlyIn_attemptRun _ _)

theorem onlyIn_commitDecision (s : State) :
    OnlyIn [.commit, .tiles, .ftg, .scheduler, .follower, .report] s (commitDecision s) := by
  unfold commitDecision
  simp only
  (repeat' split) <;> first
    | exact .refl _ _
    | exact (onlyIn_endAttempt s).mono (by decide)
    | exact (onlyIn_endAttempt s).comp (onlyIn_decideScene _ _ _ _)

/-! ## The Ambient Unit -/

theorem onlyIn_changeAmbient (s : State) :
    OnlyIn [.ambient, .window, .commit, .tiles] s (changeAmbient s) :=
  ((onlyIn_setAmbient s _).comp (rs := [.ambient, .window]) (onlyIn_raise _ _)).comp (onlyIn_requestLevel _ _)

theorem onlyIn_judgeAmbient (average : Nat) (s : State) :
    OnlyIn [.ambient, .window, .commit, .tiles] s (judgeAmbient average s) := by
  unfold judgeAmbient
  (repeat' split) <;> first
    | exact .refl _ _
    | exact onlyIn_changeAmbient s
    | exact (onlyIn_setAmbient s _).mono (by decide)

theorem onlyIn_takeReading (r : Nat) (s : State) :
    OnlyIn [.ambient, .window, .commit, .tiles] s (takeReading r s) := by
  unfold takeReading
  simp only
  refine OnlyIn.comp (ps := [.ambient, .window]) ?_ (onlyIn_judgeAmbient _ _)
  exact onlyIn_ite ((onlyIn_setAmbient s _).comp (onlyIn_raise _ _)) ((onlyIn_setAmbient s _).mono (by decide))

theorem onlyIn_failReading (s : State) : OnlyIn [.ambient, .window] s (failReading s) := by
  unfold failReading
  simp only
  (repeat' split) <;> first
    | exact (onlyIn_setAmbient s _).mono (by decide)
    | exact (onlyIn_setAmbient s _).comp (onlyIn_raise _ _)

theorem onlyIn_beginPolling (s : State) : OnlyIn [.ambient, .window, .commit, .tiles] s (beginPolling s) := by
  unfold beginPolling
  simp only
  split
  · exact (onlyIn_setAmbient s _).comp (onlyIn_changeAmbient _)
  · exact (onlyIn_setAmbient s _).mono (by decide)
  · exact (onlyIn_setAmbient s _).mono (by decide)

/-! ## The Memory Arbiter and the Report Writer -/

theorem onlyIn_grantEngine (k : Nat) (urgent : Bool) (s : State) : OnlyIn [.tiles, .arbiter] s (grantEngine k urgent s) :=
  (onlyIn_updTile k _ s).comp (onlyIn_setArbiter _ _)

theorem onlyIn_countCarried (s : State) : OnlyIn [.window] s (countCarried s) := by
  unfold countCarried
  (repeat' split) <;> first | exact .refl _ _ | exact onlyIn_setWindow s _

theorem onlyIn_grantHost (s : State) : OnlyIn [.mem, .port, .window] s (grantHost s) := by
  unfold grantHost
  simp only
  (repeat' split) <;> first
    | exact .refl _ _
    | exact (onlyIn_setPort s _).comp (onlyIn_countCarried _)
    | exact ((onlyIn_setMem s _).comp (rs := [.mem, .port]) (onlyIn_setPort _ _)).comp (onlyIn_countCarried _)
    | exact (onlyIn_setMem s _).comp (onlyIn_setPort _ _)

theorem onlyIn_grantReport (i : Nat) (s : State) : OnlyIn [.mem, .report] s (grantReport i s) := by
  unfold grantReport
  simp only
  split
  · exact .refl _ _
  · exact (onlyIn_setMem s _).comp (onlyIn_setReport _ _)

theorem onlyIn_grantPlate (index : Nat) (s : State) : OnlyIn [.commit] s (grantPlate index s) := by
  unfold grantPlate
  split
  · exact .refl _ _
  · exact onlyIn_setCommit s _

theorem onlyIn_grantFollower (s : State) : OnlyIn [.follower] s (grantFollower s) := by
  unfold grantFollower
  (repeat' split) <;> first | exact .refl _ _ | exact onlyIn_setFollower s _

theorem onlyIn_grantProfile (s : State) : OnlyIn [.window] s (grantProfile s) := by
  unfold grantProfile
  (repeat' split) <;> first | exact .refl _ _ | exact onlyIn_setWindow s _

theorem onlyIn_grantOther (s : State) : OnlyIn [.tiles, .arbiter] s (grantOther s) := by
  unfold grantOther
  split
  · exact onlyIn_grantEngine _ _ s
  · exact .refl _ _

theorem onlyIn_grantPlace4 (s : State) :
    OnlyIn [.tiles, .arbiter, .commit, .follower, .window] s (grantPlace4 s) := by
  unfold grantPlace4
  (repeat' split) <;> first
    | exact (onlyIn_grantPlate _ s).mono (by decide)
    | exact (onlyIn_grantFollower s).mono (by decide)
    | exact (onlyIn_grantProfile s).mono (by decide)
    | exact (onlyIn_grantOther s).mono (by decide)

theorem onlyIn_receiveHoldFault (s : State) : OnlyIn [.report] s (receiveHoldFault s) := by
  unfold receiveHoldFault
  (repeat' split) <;> first
    | exact .refl _ _
    | exact (onlyIn_setReport s _).trans (onlyIn_enqueue _ _)

theorem onlyIn_receiveHandoff (s : State) : OnlyIn [.report, .commit] s (receiveHandoff s) := by
  unfold receiveHandoff
  (repeat' split) <;> first
    | exact .refl _ _
    | exact (onlyIn_setCommit s _).comp (onlyIn_enqueue _ _)

theorem onlyIn_receiveWaiting (s : State) :
    OnlyIn [.scheduler, .follower, .report, .commit] s (receiveWaiting s) := by
  unfold receiveWaiting
  simp only
  exact (((onlyIn_drainDeparting _ s).trans ((onlyIn_foldl _ (fun u _ => onlyIn_receiveHoldFault u) _ _).mono
    (by decide))).comp (rs := [.scheduler, .follower, .report, .commit])
      (onlyIn_foldl _ (fun u _ => onlyIn_receiveHandoff u) _ _))

theorem onlyIn_popReport (s : State) : OnlyIn [.report] s (popReport s) := onlyIn_setReport s _

theorem onlyIn_countFinal (kind : OutcomeKind) (s : State) : OnlyIn [.report, .window] s (countFinal kind s) :=
  onlyIn_ite ((onlyIn_setReport s _).comp (onlyIn_raise _ _)) (.refl _ _)

/-! ## Start-up, commands and the frame start -/

theorem onlyIn_takeRefresh (s : State) : OnlyIn [.report] s (takeRefresh s) :=
  onlyIn_ite ((onlyIn_enqueue _ s).trans (onlyIn_setReport _ _)) (onlyIn_setReport s _)

theorem onlyIn_prepareEngines (s : State) : OnlyIn [.tiles] s (prepareEngines s) := onlyIn_setTiles s _

theorem onlyIn_beginLink (k : Nat) (s : State) : OnlyIn [.tiles] s (beginLink k s) := onlyIn_updTile k _ s

theorem onlyIn_beginRunning (s : State) :
    OnlyIn [.ftg, .tiles, .ambient, .window, .commit, .report] s (beginRunning s) := by
  unfold beginRunning
  simp only
  refine OnlyIn.comp (ps := [.ftg, .tiles, .ambient, .window, .commit, .report]) ?_ (onlyIn_prepareEngines _)
  refine OnlyIn.comp (ps := [.ftg, .tiles, .ambient, .window, .commit]) ?_ (onlyIn_takeRefresh _)
  refine OnlyIn.comp (ps := [.ftg, .tiles]) ?_ (onlyIn_beginPolling _)
  exact (onlyIn_setFtg s _).comp (onlyIn_forTiles _ _ onlyIn_beginLink _)

theorem onlyIn_loadTrims (image : List (Option Byte)) (s : State) : OnlyIn [.tiles] s (loadTrims image s) :=
  onlyIn_setTiles s _

theorem onlyIn_adopt (p : Profile) (s : State) :
    OnlyIn [.profile, .ftg, .tiles, .ambient, .window, .commit, .report] s (adopt p s) :=
  ((onlyIn_setProfile s _).comp (rs := [.profile, .window]) (onlyIn_setWindow _ _)).comp (onlyIn_beginRunning _)

theorem onlyIn_recordCommand (c : Command) (result : Result) (s : State) :
    OnlyIn [.window] s (recordCommand c result s) := onlyIn_setWindow s _

theorem onlyIn_linksAtFrameStart (s : State) : OnlyIn [.tiles, .window] s (linksAtFrameStart s) :=
  onlyIn_forTiles _ _ onlyIn_stepLinkUnlessDone s

/-- The beginning of a frame start. -/
theorem onlyIn_beginFrame (s : State) :
    OnlyIn [.tiles, .window, .ftg, .commit, .scheduler, .follower, .report] s (beginFrame s) := by
  unfold beginFrame
  refine OnlyIn.comp (ps := [.tiles, .window, .ftg, .commit]) ?_ (onlyIn_receiveWaiting _)
  refine OnlyIn.comp (ps := [.tiles, .window, .ftg]) ?_ (onlyIn_endAttempt _)
  exact (onlyIn_linksAtFrameStart s).comp (onlyIn_setFtg _ _)

theorem onlyIn_scheduleAtFrameStart (s : State) :
    OnlyIn [.scheduler, .follower, .report] s (scheduleAtFrameStart s) :=
  (onlyIn_skipWaits _ s).comp (onlyIn_fixTargets _)

theorem onlyIn_scanAtFrameStart (s : State) : OnlyIn [.commit, .tiles, .window] s (scanAtFrameStart s) :=
  (onlyIn_forTiles _ _ onlyIn_scanTile s).comp (onlyIn_setWindow _ _)

theorem onlyIn_completeAtFrameStart (s : State) :
    OnlyIn [.commit, .store, .report, .window] s (completeAtFrameStart s) :=
  ((onlyIn_foldl _ onlyIn_completeReaching _ s).comp (rs := [.commit, .store, .report, .window])
    (onlyIn_releaseScenes _)).comp (onlyIn_completeStop _)

theorem onlyIn_untilRefresh (s : State) :
    OnlyIn [.tiles, .window, .ftg, .commit, .scheduler, .follower, .report, .store] s (untilRefresh s) := by
  unfold untilRefresh
  refine OnlyIn.comp (ps := [.tiles, .window, .ftg, .commit, .scheduler, .follower, .report, .store]) ?_
    (onlyIn_prepareEngines _)
  refine OnlyIn.comp (ps := [.tiles, .window, .ftg, .commit, .scheduler, .follower, .report, .store]) ?_
    (onlyIn_retryLevelRequest _)
  refine OnlyIn.comp (ps := [.tiles, .window, .ftg, .commit, .scheduler, .follower, .report]) ?_
    (onlyIn_completeAtFrameStart _)
  refine OnlyIn.comp (ps := [.tiles, .window, .ftg, .commit, .scheduler, .follower, .report]) ?_
    (onlyIn_scanAtFrameStart _)
  exact (onlyIn_beginFrame s).comp (onlyIn_scheduleAtFrameStart _)

/-- A frame start touches neither show memory, nor the profile, the arbiter, the host window port, the pins or the
commands waiting. -/
theorem onlyIn_wholeFrameStart (s : State) :
    OnlyIn [.ftg, .follower, .scheduler, .commit, .tiles, .store, .report, .window] s (wholeFrameStart s) := by
  unfold wholeFrameStart
  simp only
  refine OnlyIn.comp (ps := [.ftg, .follower, .scheduler, .commit, .tiles, .store, .report, .window]) ?_
    (onlyIn_pollLink _)
  refine OnlyIn.comp (ps := [.ftg, .follower, .scheduler, .commit, .tiles, .store, .report, .window]) ?_
    ((onlyIn_mapQueue _ _).comp (onlyIn_attemptRun _ _) (by decide) (List.Subset.refl _))
  exact (onlyIn_untilRefresh s).comp (onlyIn_takeRefresh _)

theorem onlyIn_frameStart (s : State) :
    OnlyIn [.ftg, .follower, .scheduler, .commit, .tiles, .store, .report, .window] s (frameStart s) :=
  onlyIn_ite (onlyIn_ite ((onlyIn_setFtg s _).mono (by decide)) (onlyIn_wholeFrameStart s)) (.refl _ _)

/-- A WAIT_LIMIT_SKIP takes a frame start or does nothing. -/
theorem onlyIn_waitLimitSkip (record : Nat) (s : State) :
    OnlyIn [.ftg, .follower, .scheduler, .commit, .tiles, .store, .report, .window] s (waitLimitSkip record s) :=
  onlyIn_ite ((onlyIn_wholeFrameStart s).comp (onlyIn_setFtg _ _)) (.refl _ _)

end Sys2Proof.Machine
end

