-- ==== Sys2Proof/Laws/State.lean ====
section
/-! SUPPORT. One lemma per field per update of the state, true by `rfl`, so that no proof unfolds a record update. -/

namespace Sys2Proof.Machine

section
variable (s : State)

@[simp] theorem State.setMem_mem (x : List Host.Cell) : (s.setMem x).mem = x := rfl
@[simp] theorem State.setMem_profile (x : List Host.Cell) : (s.setMem x).profile = s.profile := rfl
@[simp] theorem State.setMem_ftg (x : List Host.Cell) : (s.setMem x).ftg = s.ftg := rfl
@[simp] theorem State.setMem_follower (x : List Host.Cell) : (s.setMem x).follower = s.follower := rfl
@[simp] theorem State.setMem_scheduler (x : List Host.Cell) : (s.setMem x).scheduler = s.scheduler := rfl
@[simp] theorem State.setMem_commit (x : List Host.Cell) : (s.setMem x).commit = s.commit := rfl
@[simp] theorem State.setMem_tiles (x : List Host.Cell) : (s.setMem x).tiles = s.tiles := rfl
@[simp] theorem State.setMem_arbiter (x : List Host.Cell) : (s.setMem x).arbiter = s.arbiter := rfl
@[simp] theorem State.setMem_port (x : List Host.Cell) : (s.setMem x).port = s.port := rfl
@[simp] theorem State.setMem_ambient (x : List Host.Cell) : (s.setMem x).ambient = s.ambient := rfl
@[simp] theorem State.setMem_store (x : List Host.Cell) : (s.setMem x).store = s.store := rfl
@[simp] theorem State.setMem_report (x : List Host.Cell) : (s.setMem x).report = s.report := rfl
@[simp] theorem State.setMem_window (x : List Host.Cell) : (s.setMem x).window = s.window := rfl
@[simp] theorem State.setMem_pins (x : List Host.Cell) : (s.setMem x).pins = s.pins := rfl
@[simp] theorem State.setMem_freeIndex (x : List Host.Cell) : (s.setMem x).freeIndex = s.freeIndex := rfl
@[simp] theorem State.setMem_pending (x : List Host.Cell) : (s.setMem x).pending = s.pending := rfl
@[simp] theorem State.setMem_twice (x y : List Host.Cell) : (s.setMem x).setMem y = s.setMem y := rfl
@[simp] theorem State.setMem_prof (x : List Host.Cell) : (s.setMem x).prof = s.prof := rfl
@[simp] theorem State.setMem_horizon (x : List Host.Cell) : (s.setMem x).horizon = s.horizon := rfl
@[simp] theorem State.setMem_now (x : List Host.Cell) : (s.setMem x).now = s.now := rfl
@[simp] theorem State.setMem_tile (x : List Host.Cell) (k : Nat) : (s.setMem x).tile k = s.tile k := rfl

@[simp] theorem State.setProfile_mem (x : Option Profile) : (s.setProfile x).mem = s.mem := rfl
@[simp] theorem State.setProfile_profile (x : Option Profile) : (s.setProfile x).profile = x := rfl
@[simp] theorem State.setProfile_ftg (x : Option Profile) : (s.setProfile x).ftg = s.ftg := rfl
@[simp] theorem State.setProfile_follower (x : Option Profile) : (s.setProfile x).follower = s.follower := rfl
@[simp] theorem State.setProfile_scheduler (x : Option Profile) : (s.setProfile x).scheduler = s.scheduler := rfl
@[simp] theorem State.setProfile_commit (x : Option Profile) : (s.setProfile x).commit = s.commit := rfl
@[simp] theorem State.setProfile_tiles (x : Option Profile) : (s.setProfile x).tiles = s.tiles := rfl
@[simp] theorem State.setProfile_arbiter (x : Option Profile) : (s.setProfile x).arbiter = s.arbiter := rfl
@[simp] theorem State.setProfile_port (x : Option Profile) : (s.setProfile x).port = s.port := rfl
@[simp] theorem State.setProfile_ambient (x : Option Profile) : (s.setProfile x).ambient = s.ambient := rfl
@[simp] theorem State.setProfile_store (x : Option Profile) : (s.setProfile x).store = s.store := rfl
@[simp] theorem State.setProfile_report (x : Option Profile) : (s.setProfile x).report = s.report := rfl
@[simp] theorem State.setProfile_window (x : Option Profile) : (s.setProfile x).window = s.window := rfl
@[simp] theorem State.setProfile_pins (x : Option Profile) : (s.setProfile x).pins = s.pins := rfl
@[simp] theorem State.setProfile_freeIndex (x : Option Profile) : (s.setProfile x).freeIndex = s.freeIndex := rfl
@[simp] theorem State.setProfile_pending (x : Option Profile) : (s.setProfile x).pending = s.pending := rfl
@[simp] theorem State.setProfile_twice (x y : Option Profile) : (s.setProfile x).setProfile y = s.setProfile y := rfl
@[simp] theorem State.setProfile_now (x : Option Profile) : (s.setProfile x).now = s.now := rfl
@[simp] theorem State.setProfile_tile (x : Option Profile) (k : Nat) : (s.setProfile x).tile k = s.tile k := rfl

@[simp] theorem State.setFtg_mem (x : Ftg) : (s.setFtg x).mem = s.mem := rfl
@[simp] theorem State.setFtg_profile (x : Ftg) : (s.setFtg x).profile = s.profile := rfl
@[simp] theorem State.setFtg_ftg (x : Ftg) : (s.setFtg x).ftg = x := rfl
@[simp] theorem State.setFtg_follower (x : Ftg) : (s.setFtg x).follower = s.follower := rfl
@[simp] theorem State.setFtg_scheduler (x : Ftg) : (s.setFtg x).scheduler = s.scheduler := rfl
@[simp] theorem State.setFtg_commit (x : Ftg) : (s.setFtg x).commit = s.commit := rfl
@[simp] theorem State.setFtg_tiles (x : Ftg) : (s.setFtg x).tiles = s.tiles := rfl
@[simp] theorem State.setFtg_arbiter (x : Ftg) : (s.setFtg x).arbiter = s.arbiter := rfl
@[simp] theorem State.setFtg_port (x : Ftg) : (s.setFtg x).port = s.port := rfl
@[simp] theorem State.setFtg_ambient (x : Ftg) : (s.setFtg x).ambient = s.ambient := rfl
@[simp] theorem State.setFtg_store (x : Ftg) : (s.setFtg x).store = s.store := rfl
@[simp] theorem State.setFtg_report (x : Ftg) : (s.setFtg x).report = s.report := rfl
@[simp] theorem State.setFtg_window (x : Ftg) : (s.setFtg x).window = s.window := rfl
@[simp] theorem State.setFtg_pins (x : Ftg) : (s.setFtg x).pins = s.pins := rfl
@[simp] theorem State.setFtg_freeIndex (x : Ftg) : (s.setFtg x).freeIndex = s.freeIndex := rfl
@[simp] theorem State.setFtg_pending (x : Ftg) : (s.setFtg x).pending = s.pending := rfl
@[simp] theorem State.setFtg_twice (x y : Ftg) : (s.setFtg x).setFtg y = s.setFtg y := rfl
@[simp] theorem State.setFtg_prof (x : Ftg) : (s.setFtg x).prof = s.prof := rfl
@[simp] theorem State.setFtg_horizon (x : Ftg) : (s.setFtg x).horizon = s.horizon := rfl
@[simp] theorem State.setFtg_tile (x : Ftg) (k : Nat) : (s.setFtg x).tile k = s.tile k := rfl

@[simp] theorem State.setFollower_mem (x : Follower) : (s.setFollower x).mem = s.mem := rfl
@[simp] theorem State.setFollower_profile (x : Follower) : (s.setFollower x).profile = s.profile := rfl
@[simp] theorem State.setFollower_ftg (x : Follower) : (s.setFollower x).ftg = s.ftg := rfl
@[simp] theorem State.setFollower_follower (x : Follower) : (s.setFollower x).follower = x := rfl
@[simp] theorem State.setFollower_scheduler (x : Follower) : (s.setFollower x).scheduler = s.scheduler := rfl
@[simp] theorem State.setFollower_commit (x : Follower) : (s.setFollower x).commit = s.commit := rfl
@[simp] theorem State.setFollower_tiles (x : Follower) : (s.setFollower x).tiles = s.tiles := rfl
@[simp] theorem State.setFollower_arbiter (x : Follower) : (s.setFollower x).arbiter = s.arbiter := rfl
@[simp] theorem State.setFollower_port (x : Follower) : (s.setFollower x).port = s.port := rfl
@[simp] theorem State.setFollower_ambient (x : Follower) : (s.setFollower x).ambient = s.ambient := rfl
@[simp] theorem State.setFollower_store (x : Follower) : (s.setFollower x).store = s.store := rfl
@[simp] theorem State.setFollower_report (x : Follower) : (s.setFollower x).report = s.report := rfl
@[simp] theorem State.setFollower_window (x : Follower) : (s.setFollower x).window = s.window := rfl
@[simp] theorem State.setFollower_pins (x : Follower) : (s.setFollower x).pins = s.pins := rfl
@[simp] theorem State.setFollower_freeIndex (x : Follower) : (s.setFollower x).freeIndex = s.freeIndex := rfl
@[simp] theorem State.setFollower_pending (x : Follower) : (s.setFollower x).pending = s.pending := rfl
@[simp] theorem State.setFollower_twice (x y : Follower) : (s.setFollower x).setFollower y = s.setFollower y := rfl
@[simp] theorem State.setFollower_prof (x : Follower) : (s.setFollower x).prof = s.prof := rfl
@[simp] theorem State.setFollower_horizon (x : Follower) : (s.setFollower x).horizon = s.horizon := rfl
@[simp] theorem State.setFollower_now (x : Follower) : (s.setFollower x).now = s.now := rfl
@[simp] theorem State.setFollower_tile (x : Follower) (k : Nat) : (s.setFollower x).tile k = s.tile k := rfl

@[simp] theorem State.setScheduler_mem (x : Scheduler) : (s.setScheduler x).mem = s.mem := rfl
@[simp] theorem State.setScheduler_profile (x : Scheduler) : (s.setScheduler x).profile = s.profile := rfl
@[simp] theorem State.setScheduler_ftg (x : Scheduler) : (s.setScheduler x).ftg = s.ftg := rfl
@[simp] theorem State.setScheduler_follower (x : Scheduler) : (s.setScheduler x).follower = s.follower := rfl
@[simp] theorem State.setScheduler_scheduler (x : Scheduler) : (s.setScheduler x).scheduler = x := rfl
@[simp] theorem State.setScheduler_commit (x : Scheduler) : (s.setScheduler x).commit = s.commit := rfl
@[simp] theorem State.setScheduler_tiles (x : Scheduler) : (s.setScheduler x).tiles = s.tiles := rfl
@[simp] theorem State.setScheduler_arbiter (x : Scheduler) : (s.setScheduler x).arbiter = s.arbiter := rfl
@[simp] theorem State.setScheduler_port (x : Scheduler) : (s.setScheduler x).port = s.port := rfl
@[simp] theorem State.setScheduler_ambient (x : Scheduler) : (s.setScheduler x).ambient = s.ambient := rfl
@[simp] theorem State.setScheduler_store (x : Scheduler) : (s.setScheduler x).store = s.store := rfl
@[simp] theorem State.setScheduler_report (x : Scheduler) : (s.setScheduler x).report = s.report := rfl
@[simp] theorem State.setScheduler_window (x : Scheduler) : (s.setScheduler x).window = s.window := rfl
@[simp] theorem State.setScheduler_pins (x : Scheduler) : (s.setScheduler x).pins = s.pins := rfl
@[simp] theorem State.setScheduler_freeIndex (x : Scheduler) : (s.setScheduler x).freeIndex = s.freeIndex := rfl
@[simp] theorem State.setScheduler_pending (x : Scheduler) : (s.setScheduler x).pending = s.pending := rfl
@[simp] theorem State.setScheduler_twice (x y : Scheduler) : (s.setScheduler x).setScheduler y = s.setScheduler y := rfl
@[simp] theorem State.setScheduler_prof (x : Scheduler) : (s.setScheduler x).prof = s.prof := rfl
@[simp] theorem State.setScheduler_horizon (x : Scheduler) : (s.setScheduler x).horizon = s.horizon := rfl
@[simp] theorem State.setScheduler_now (x : Scheduler) : (s.setScheduler x).now = s.now := rfl
@[simp] theorem State.setScheduler_tile (x : Scheduler) (k : Nat) : (s.setScheduler x).tile k = s.tile k := rfl

@[simp] theorem State.setCommit_mem (x : CommitUnit) : (s.setCommit x).mem = s.mem := rfl
@[simp] theorem State.setCommit_profile (x : CommitUnit) : (s.setCommit x).profile = s.profile := rfl
@[simp] theorem State.setCommit_ftg (x : CommitUnit) : (s.setCommit x).ftg = s.ftg := rfl
@[simp] theorem State.setCommit_follower (x : CommitUnit) : (s.setCommit x).follower = s.follower := rfl
@[simp] theorem State.setCommit_scheduler (x : CommitUnit) : (s.setCommit x).scheduler = s.scheduler := rfl
@[simp] theorem State.setCommit_commit (x : CommitUnit) : (s.setCommit x).commit = x := rfl
@[simp] theorem State.setCommit_tiles (x : CommitUnit) : (s.setCommit x).tiles = s.tiles := rfl
@[simp] theorem State.setCommit_arbiter (x : CommitUnit) : (s.setCommit x).arbiter = s.arbiter := rfl
@[simp] theorem State.setCommit_port (x : CommitUnit) : (s.setCommit x).port = s.port := rfl
@[simp] theorem State.setCommit_ambient (x : CommitUnit) : (s.setCommit x).ambient = s.ambient := rfl
@[simp] theorem State.setCommit_store (x : CommitUnit) : (s.setCommit x).store = s.store := rfl
@[simp] theorem State.setCommit_report (x : CommitUnit) : (s.setCommit x).report = s.report := rfl
@[simp] theorem State.setCommit_window (x : CommitUnit) : (s.setCommit x).window = s.window := rfl
@[simp] theorem State.setCommit_pins (x : CommitUnit) : (s.setCommit x).pins = s.pins := rfl
@[simp] theorem State.setCommit_freeIndex (x : CommitUnit) : (s.setCommit x).freeIndex = s.freeIndex := rfl
@[simp] theorem State.setCommit_pending (x : CommitUnit) : (s.setCommit x).pending = s.pending := rfl
@[simp] theorem State.setCommit_twice (x y : CommitUnit) : (s.setCommit x).setCommit y = s.setCommit y := rfl
@[simp] theorem State.setCommit_prof (x : CommitUnit) : (s.setCommit x).prof = s.prof := rfl
@[simp] theorem State.setCommit_horizon (x : CommitUnit) : (s.setCommit x).horizon = s.horizon := rfl
@[simp] theorem State.setCommit_now (x : CommitUnit) : (s.setCommit x).now = s.now := rfl
@[simp] theorem State.setCommit_tile (x : CommitUnit) (k : Nat) : (s.setCommit x).tile k = s.tile k := rfl

@[simp] theorem State.setTiles_mem (x : List Tile) : (s.setTiles x).mem = s.mem := rfl
@[simp] theorem State.setTiles_profile (x : List Tile) : (s.setTiles x).profile = s.profile := rfl
@[simp] theorem State.setTiles_ftg (x : List Tile) : (s.setTiles x).ftg = s.ftg := rfl
@[simp] theorem State.setTiles_follower (x : List Tile) : (s.setTiles x).follower = s.follower := rfl
@[simp] theorem State.setTiles_scheduler (x : List Tile) : (s.setTiles x).scheduler = s.scheduler := rfl
@[simp] theorem State.setTiles_commit (x : List Tile) : (s.setTiles x).commit = s.commit := rfl
@[simp] theorem State.setTiles_tiles (x : List Tile) : (s.setTiles x).tiles = x := rfl
@[simp] theorem State.setTiles_arbiter (x : List Tile) : (s.setTiles x).arbiter = s.arbiter := rfl
@[simp] theorem State.setTiles_port (x : List Tile) : (s.setTiles x).port = s.port := rfl
@[simp] theorem State.setTiles_ambient (x : List Tile) : (s.setTiles x).ambient = s.ambient := rfl
@[simp] theorem State.setTiles_store (x : List Tile) : (s.setTiles x).store = s.store := rfl
@[simp] theorem State.setTiles_report (x : List Tile) : (s.setTiles x).report = s.report := rfl
@[simp] theorem State.setTiles_window (x : List Tile) : (s.setTiles x).window = s.window := rfl
@[simp] theorem State.setTiles_pins (x : List Tile) : (s.setTiles x).pins = s.pins := rfl
@[simp] theorem State.setTiles_freeIndex (x : List Tile) : (s.setTiles x).freeIndex = s.freeIndex := rfl
@[simp] theorem State.setTiles_pending (x : List Tile) : (s.setTiles x).pending = s.pending := rfl
@[simp] theorem State.setTiles_twice (x y : List Tile) : (s.setTiles x).setTiles y = s.setTiles y := rfl
@[simp] theorem State.setTiles_prof (x : List Tile) : (s.setTiles x).prof = s.prof := rfl
@[simp] theorem State.setTiles_horizon (x : List Tile) : (s.setTiles x).horizon = s.horizon := rfl
@[simp] theorem State.setTiles_now (x : List Tile) : (s.setTiles x).now = s.now := rfl

@[simp] theorem State.setArbiter_mem (x : Arbiter) : (s.setArbiter x).mem = s.mem := rfl
@[simp] theorem State.setArbiter_profile (x : Arbiter) : (s.setArbiter x).profile = s.profile := rfl
@[simp] theorem State.setArbiter_ftg (x : Arbiter) : (s.setArbiter x).ftg = s.ftg := rfl
@[simp] theorem State.setArbiter_follower (x : Arbiter) : (s.setArbiter x).follower = s.follower := rfl
@[simp] theorem State.setArbiter_scheduler (x : Arbiter) : (s.setArbiter x).scheduler = s.scheduler := rfl
@[simp] theorem State.setArbiter_commit (x : Arbiter) : (s.setArbiter x).commit = s.commit := rfl
@[simp] theorem State.setArbiter_tiles (x : Arbiter) : (s.setArbiter x).tiles = s.tiles := rfl
@[simp] theorem State.setArbiter_arbiter (x : Arbiter) : (s.setArbiter x).arbiter = x := rfl
@[simp] theorem State.setArbiter_port (x : Arbiter) : (s.setArbiter x).port = s.port := rfl
@[simp] theorem State.setArbiter_ambient (x : Arbiter) : (s.setArbiter x).ambient = s.ambient := rfl
@[simp] theorem State.setArbiter_store (x : Arbiter) : (s.setArbiter x).store = s.store := rfl
@[simp] theorem State.setArbiter_report (x : Arbiter) : (s.setArbiter x).report = s.report := rfl
@[simp] theorem State.setArbiter_window (x : Arbiter) : (s.setArbiter x).window = s.window := rfl
@[simp] theorem State.setArbiter_pins (x : Arbiter) : (s.setArbiter x).pins = s.pins := rfl
@[simp] theorem State.setArbiter_freeIndex (x : Arbiter) : (s.setArbiter x).freeIndex = s.freeIndex := rfl
@[simp] theorem State.setArbiter_pending (x : Arbiter) : (s.setArbiter x).pending = s.pending := rfl
@[simp] theorem State.setArbiter_twice (x y : Arbiter) : (s.setArbiter x).setArbiter y = s.setArbiter y := rfl
@[simp] theorem State.setArbiter_prof (x : Arbiter) : (s.setArbiter x).prof = s.prof := rfl
@[simp] theorem State.setArbiter_horizon (x : Arbiter) : (s.setArbiter x).horizon = s.horizon := rfl
@[simp] theorem State.setArbiter_now (x : Arbiter) : (s.setArbiter x).now = s.now := rfl
@[simp] theorem State.setArbiter_tile (x : Arbiter) (k : Nat) : (s.setArbiter x).tile k = s.tile k := rfl

@[simp] theorem State.setPort_mem (x : HostPort) : (s.setPort x).mem = s.mem := rfl
@[simp] theorem State.setPort_profile (x : HostPort) : (s.setPort x).profile = s.profile := rfl
@[simp] theorem State.setPort_ftg (x : HostPort) : (s.setPort x).ftg = s.ftg := rfl
@[simp] theorem State.setPort_follower (x : HostPort) : (s.setPort x).follower = s.follower := rfl
@[simp] theorem State.setPort_scheduler (x : HostPort) : (s.setPort x).scheduler = s.scheduler := rfl
@[simp] theorem State.setPort_commit (x : HostPort) : (s.setPort x).commit = s.commit := rfl
@[simp] theorem State.setPort_tiles (x : HostPort) : (s.setPort x).tiles = s.tiles := rfl
@[simp] theorem State.setPort_arbiter (x : HostPort) : (s.setPort x).arbiter = s.arbiter := rfl
@[simp] theorem State.setPort_port (x : HostPort) : (s.setPort x).port = x := rfl
@[simp] theorem State.setPort_ambient (x : HostPort) : (s.setPort x).ambient = s.ambient := rfl
@[simp] theorem State.setPort_store (x : HostPort) : (s.setPort x).store = s.store := rfl
@[simp] theorem State.setPort_report (x : HostPort) : (s.setPort x).report = s.report := rfl
@[simp] theorem State.setPort_window (x : HostPort) : (s.setPort x).window = s.window := rfl
@[simp] theorem State.setPort_pins (x : HostPort) : (s.setPort x).pins = s.pins := rfl
@[simp] theorem State.setPort_freeIndex (x : HostPort) : (s.setPort x).freeIndex = s.freeIndex := rfl
@[simp] theorem State.setPort_pending (x : HostPort) : (s.setPort x).pending = s.pending := rfl
@[simp] theorem State.setPort_twice (x y : HostPort) : (s.setPort x).setPort y = s.setPort y := rfl
@[simp] theorem State.setPort_prof (x : HostPort) : (s.setPort x).prof = s.prof := rfl
@[simp] theorem State.setPort_horizon (x : HostPort) : (s.setPort x).horizon = s.horizon := rfl
@[simp] theorem State.setPort_now (x : HostPort) : (s.setPort x).now = s.now := rfl
@[simp] theorem State.setPort_tile (x : HostPort) (k : Nat) : (s.setPort x).tile k = s.tile k := rfl

@[simp] theorem State.setAmbient_mem (x : AmbientUnit) : (s.setAmbient x).mem = s.mem := rfl
@[simp] theorem State.setAmbient_profile (x : AmbientUnit) : (s.setAmbient x).profile = s.profile := rfl
@[simp] theorem State.setAmbient_ftg (x : AmbientUnit) : (s.setAmbient x).ftg = s.ftg := rfl
@[simp] theorem State.setAmbient_follower (x : AmbientUnit) : (s.setAmbient x).follower = s.follower := rfl
@[simp] theorem State.setAmbient_scheduler (x : AmbientUnit) : (s.setAmbient x).scheduler = s.scheduler := rfl
@[simp] theorem State.setAmbient_commit (x : AmbientUnit) : (s.setAmbient x).commit = s.commit := rfl
@[simp] theorem State.setAmbient_tiles (x : AmbientUnit) : (s.setAmbient x).tiles = s.tiles := rfl
@[simp] theorem State.setAmbient_arbiter (x : AmbientUnit) : (s.setAmbient x).arbiter = s.arbiter := rfl
@[simp] theorem State.setAmbient_port (x : AmbientUnit) : (s.setAmbient x).port = s.port := rfl
@[simp] theorem State.setAmbient_ambient (x : AmbientUnit) : (s.setAmbient x).ambient = x := rfl
@[simp] theorem State.setAmbient_store (x : AmbientUnit) : (s.setAmbient x).store = s.store := rfl
@[simp] theorem State.setAmbient_report (x : AmbientUnit) : (s.setAmbient x).report = s.report := rfl
@[simp] theorem State.setAmbient_window (x : AmbientUnit) : (s.setAmbient x).window = s.window := rfl
@[simp] theorem State.setAmbient_pins (x : AmbientUnit) : (s.setAmbient x).pins = s.pins := rfl
@[simp] theorem State.setAmbient_freeIndex (x : AmbientUnit) : (s.setAmbient x).freeIndex = s.freeIndex := rfl
@[simp] theorem State.setAmbient_pending (x : AmbientUnit) : (s.setAmbient x).pending = s.pending := rfl
@[simp] theorem State.setAmbient_twice (x y : AmbientUnit) : (s.setAmbient x).setAmbient y = s.setAmbient y := rfl
@[simp] theorem State.setAmbient_prof (x : AmbientUnit) : (s.setAmbient x).prof = s.prof := rfl
@[simp] theorem State.setAmbient_horizon (x : AmbientUnit) : (s.setAmbient x).horizon = s.horizon := rfl
@[simp] theorem State.setAmbient_now (x : AmbientUnit) : (s.setAmbient x).now = s.now := rfl
@[simp] theorem State.setAmbient_tile (x : AmbientUnit) (k : Nat) : (s.setAmbient x).tile k = s.tile k := rfl

@[simp] theorem State.setStore_mem (x : Store) : (s.setStore x).mem = s.mem := rfl
@[simp] theorem State.setStore_profile (x : Store) : (s.setStore x).profile = s.profile := rfl
@[simp] theorem State.setStore_ftg (x : Store) : (s.setStore x).ftg = s.ftg := rfl
@[simp] theorem State.setStore_follower (x : Store) : (s.setStore x).follower = s.follower := rfl
@[simp] theorem State.setStore_scheduler (x : Store) : (s.setStore x).scheduler = s.scheduler := rfl
@[simp] theorem State.setStore_commit (x : Store) : (s.setStore x).commit = s.commit := rfl
@[simp] theorem State.setStore_tiles (x : Store) : (s.setStore x).tiles = s.tiles := rfl
@[simp] theorem State.setStore_arbiter (x : Store) : (s.setStore x).arbiter = s.arbiter := rfl
@[simp] theorem State.setStore_port (x : Store) : (s.setStore x).port = s.port := rfl
@[simp] theorem State.setStore_ambient (x : Store) : (s.setStore x).ambient = s.ambient := rfl
@[simp] theorem State.setStore_store (x : Store) : (s.setStore x).store = x := rfl
@[simp] theorem State.setStore_report (x : Store) : (s.setStore x).report = s.report := rfl
@[simp] theorem State.setStore_window (x : Store) : (s.setStore x).window = s.window := rfl
@[simp] theorem State.setStore_pins (x : Store) : (s.setStore x).pins = s.pins := rfl
@[simp] theorem State.setStore_freeIndex (x : Store) : (s.setStore x).freeIndex = s.freeIndex := rfl
@[simp] theorem State.setStore_pending (x : Store) : (s.setStore x).pending = s.pending := rfl
@[simp] theorem State.setStore_twice (x y : Store) : (s.setStore x).setStore y = s.setStore y := rfl
@[simp] theorem State.setStore_prof (x : Store) : (s.setStore x).prof = s.prof := rfl
@[simp] theorem State.setStore_horizon (x : Store) : (s.setStore x).horizon = s.horizon := rfl
@[simp] theorem State.setStore_now (x : Store) : (s.setStore x).now = s.now := rfl
@[simp] theorem State.setStore_tile (x : Store) (k : Nat) : (s.setStore x).tile k = s.tile k := rfl

@[simp] theorem State.setReport_mem (x : Report) : (s.setReport x).mem = s.mem := rfl
@[simp] theorem State.setReport_profile (x : Report) : (s.setReport x).profile = s.profile := rfl
@[simp] theorem State.setReport_ftg (x : Report) : (s.setReport x).ftg = s.ftg := rfl
@[simp] theorem State.setReport_follower (x : Report) : (s.setReport x).follower = s.follower := rfl
@[simp] theorem State.setReport_scheduler (x : Report) : (s.setReport x).scheduler = s.scheduler := rfl
@[simp] theorem State.setReport_commit (x : Report) : (s.setReport x).commit = s.commit := rfl
@[simp] theorem State.setReport_tiles (x : Report) : (s.setReport x).tiles = s.tiles := rfl
@[simp] theorem State.setReport_arbiter (x : Report) : (s.setReport x).arbiter = s.arbiter := rfl
@[simp] theorem State.setReport_port (x : Report) : (s.setReport x).port = s.port := rfl
@[simp] theorem State.setReport_ambient (x : Report) : (s.setReport x).ambient = s.ambient := rfl
@[simp] theorem State.setReport_store (x : Report) : (s.setReport x).store = s.store := rfl
@[simp] theorem State.setReport_report (x : Report) : (s.setReport x).report = x := rfl
@[simp] theorem State.setReport_window (x : Report) : (s.setReport x).window = s.window := rfl
@[simp] theorem State.setReport_pins (x : Report) : (s.setReport x).pins = s.pins := rfl
@[simp] theorem State.setReport_freeIndex (x : Report) : (s.setReport x).freeIndex = s.freeIndex := rfl
@[simp] theorem State.setReport_pending (x : Report) : (s.setReport x).pending = s.pending := rfl
@[simp] theorem State.setReport_twice (x y : Report) : (s.setReport x).setReport y = s.setReport y := rfl
@[simp] theorem State.setReport_prof (x : Report) : (s.setReport x).prof = s.prof := rfl
@[simp] theorem State.setReport_horizon (x : Report) : (s.setReport x).horizon = s.horizon := rfl
@[simp] theorem State.setReport_now (x : Report) : (s.setReport x).now = s.now := rfl
@[simp] theorem State.setReport_tile (x : Report) (k : Nat) : (s.setReport x).tile k = s.tile k := rfl

@[simp] theorem State.setWindow_mem (x : Window) : (s.setWindow x).mem = s.mem := rfl
@[simp] theorem State.setWindow_profile (x : Window) : (s.setWindow x).profile = s.profile := rfl
@[simp] theorem State.setWindow_ftg (x : Window) : (s.setWindow x).ftg = s.ftg := rfl
@[simp] theorem State.setWindow_follower (x : Window) : (s.setWindow x).follower = s.follower := rfl
@[simp] theorem State.setWindow_scheduler (x : Window) : (s.setWindow x).scheduler = s.scheduler := rfl
@[simp] theorem State.setWindow_commit (x : Window) : (s.setWindow x).commit = s.commit := rfl
@[simp] theorem State.setWindow_tiles (x : Window) : (s.setWindow x).tiles = s.tiles := rfl
@[simp] theorem State.setWindow_arbiter (x : Window) : (s.setWindow x).arbiter = s.arbiter := rfl
@[simp] theorem State.setWindow_port (x : Window) : (s.setWindow x).port = s.port := rfl
@[simp] theorem State.setWindow_ambient (x : Window) : (s.setWindow x).ambient = s.ambient := rfl
@[simp] theorem State.setWindow_store (x : Window) : (s.setWindow x).store = s.store := rfl
@[simp] theorem State.setWindow_report (x : Window) : (s.setWindow x).report = s.report := rfl
@[simp] theorem State.setWindow_window (x : Window) : (s.setWindow x).window = x := rfl
@[simp] theorem State.setWindow_pins (x : Window) : (s.setWindow x).pins = s.pins := rfl
@[simp] theorem State.setWindow_freeIndex (x : Window) : (s.setWindow x).freeIndex = s.freeIndex := rfl
@[simp] theorem State.setWindow_pending (x : Window) : (s.setWindow x).pending = s.pending := rfl
@[simp] theorem State.setWindow_twice (x y : Window) : (s.setWindow x).setWindow y = s.setWindow y := rfl
@[simp] theorem State.setWindow_prof (x : Window) : (s.setWindow x).prof = s.prof := rfl
@[simp] theorem State.setWindow_horizon (x : Window) : (s.setWindow x).horizon = s.horizon := rfl
@[simp] theorem State.setWindow_now (x : Window) : (s.setWindow x).now = s.now := rfl
@[simp] theorem State.setWindow_tile (x : Window) (k : Nat) : (s.setWindow x).tile k = s.tile k := rfl

@[simp] theorem State.setPins_mem (x : Pins) : (s.setPins x).mem = s.mem := rfl
@[simp] theorem State.setPins_profile (x : Pins) : (s.setPins x).profile = s.profile := rfl
@[simp] theorem State.setPins_ftg (x : Pins) : (s.setPins x).ftg = s.ftg := rfl
@[simp] theorem State.setPins_follower (x : Pins) : (s.setPins x).follower = s.follower := rfl
@[simp] theorem State.setPins_scheduler (x : Pins) : (s.setPins x).scheduler = s.scheduler := rfl
@[simp] theorem State.setPins_commit (x : Pins) : (s.setPins x).commit = s.commit := rfl
@[simp] theorem State.setPins_tiles (x : Pins) : (s.setPins x).tiles = s.tiles := rfl
@[simp] theorem State.setPins_arbiter (x : Pins) : (s.setPins x).arbiter = s.arbiter := rfl
@[simp] theorem State.setPins_port (x : Pins) : (s.setPins x).port = s.port := rfl
@[simp] theorem State.setPins_ambient (x : Pins) : (s.setPins x).ambient = s.ambient := rfl
@[simp] theorem State.setPins_store (x : Pins) : (s.setPins x).store = s.store := rfl
@[simp] theorem State.setPins_report (x : Pins) : (s.setPins x).report = s.report := rfl
@[simp] theorem State.setPins_window (x : Pins) : (s.setPins x).window = s.window := rfl
@[simp] theorem State.setPins_pins (x : Pins) : (s.setPins x).pins = x := rfl
@[simp] theorem State.setPins_freeIndex (x : Pins) : (s.setPins x).freeIndex = s.freeIndex := rfl
@[simp] theorem State.setPins_pending (x : Pins) : (s.setPins x).pending = s.pending := rfl
@[simp] theorem State.setPins_twice (x y : Pins) : (s.setPins x).setPins y = s.setPins y := rfl
@[simp] theorem State.setPins_prof (x : Pins) : (s.setPins x).prof = s.prof := rfl
@[simp] theorem State.setPins_horizon (x : Pins) : (s.setPins x).horizon = s.horizon := rfl
@[simp] theorem State.setPins_now (x : Pins) : (s.setPins x).now = s.now := rfl
@[simp] theorem State.setPins_tile (x : Pins) (k : Nat) : (s.setPins x).tile k = s.tile k := rfl

@[simp] theorem State.setFreeIndex_mem (x : Nat) : (s.setFreeIndex x).mem = s.mem := rfl
@[simp] theorem State.setFreeIndex_profile (x : Nat) : (s.setFreeIndex x).profile = s.profile := rfl
@[simp] theorem State.setFreeIndex_ftg (x : Nat) : (s.setFreeIndex x).ftg = s.ftg := rfl
@[simp] theorem State.setFreeIndex_follower (x : Nat) : (s.setFreeIndex x).follower = s.follower := rfl
@[simp] theorem State.setFreeIndex_scheduler (x : Nat) : (s.setFreeIndex x).scheduler = s.scheduler := rfl
@[simp] theorem State.setFreeIndex_commit (x : Nat) : (s.setFreeIndex x).commit = s.commit := rfl
@[simp] theorem State.setFreeIndex_tiles (x : Nat) : (s.setFreeIndex x).tiles = s.tiles := rfl
@[simp] theorem State.setFreeIndex_arbiter (x : Nat) : (s.setFreeIndex x).arbiter = s.arbiter := rfl
@[simp] theorem State.setFreeIndex_port (x : Nat) : (s.setFreeIndex x).port = s.port := rfl
@[simp] theorem State.setFreeIndex_ambient (x : Nat) : (s.setFreeIndex x).ambient = s.ambient := rfl
@[simp] theorem State.setFreeIndex_store (x : Nat) : (s.setFreeIndex x).store = s.store := rfl
@[simp] theorem State.setFreeIndex_report (x : Nat) : (s.setFreeIndex x).report = s.report := rfl
@[simp] theorem State.setFreeIndex_window (x : Nat) : (s.setFreeIndex x).window = s.window := rfl
@[simp] theorem State.setFreeIndex_pins (x : Nat) : (s.setFreeIndex x).pins = s.pins := rfl
@[simp] theorem State.setFreeIndex_freeIndex (x : Nat) : (s.setFreeIndex x).freeIndex = x := rfl
@[simp] theorem State.setFreeIndex_pending (x : Nat) : (s.setFreeIndex x).pending = s.pending := rfl
@[simp] theorem State.setFreeIndex_twice (x y : Nat) : (s.setFreeIndex x).setFreeIndex y = s.setFreeIndex y := rfl
@[simp] theorem State.setFreeIndex_prof (x : Nat) : (s.setFreeIndex x).prof = s.prof := rfl
@[simp] theorem State.setFreeIndex_horizon (x : Nat) : (s.setFreeIndex x).horizon = s.horizon := rfl
@[simp] theorem State.setFreeIndex_now (x : Nat) : (s.setFreeIndex x).now = s.now := rfl
@[simp] theorem State.setFreeIndex_tile (x : Nat) (k : Nat) : (s.setFreeIndex x).tile k = s.tile k := rfl

@[simp] theorem State.setPending_mem (x : List Instr) : (s.setPending x).mem = s.mem := rfl
@[simp] theorem State.setPending_profile (x : List Instr) : (s.setPending x).profile = s.profile := rfl
@[simp] theorem State.setPending_ftg (x : List Instr) : (s.setPending x).ftg = s.ftg := rfl
@[simp] theorem State.setPending_follower (x : List Instr) : (s.setPending x).follower = s.follower := rfl
@[simp] theorem State.setPending_scheduler (x : List Instr) : (s.setPending x).scheduler = s.scheduler := rfl
@[simp] theorem State.setPending_commit (x : List Instr) : (s.setPending x).commit = s.commit := rfl
@[simp] theorem State.setPending_tiles (x : List Instr) : (s.setPending x).tiles = s.tiles := rfl
@[simp] theorem State.setPending_arbiter (x : List Instr) : (s.setPending x).arbiter = s.arbiter := rfl
@[simp] theorem State.setPending_port (x : List Instr) : (s.setPending x).port = s.port := rfl
@[simp] theorem State.setPending_ambient (x : List Instr) : (s.setPending x).ambient = s.ambient := rfl
@[simp] theorem State.setPending_store (x : List Instr) : (s.setPending x).store = s.store := rfl
@[simp] theorem State.setPending_report (x : List Instr) : (s.setPending x).report = s.report := rfl
@[simp] theorem State.setPending_window (x : List Instr) : (s.setPending x).window = s.window := rfl
@[simp] theorem State.setPending_pins (x : List Instr) : (s.setPending x).pins = s.pins := rfl
@[simp] theorem State.setPending_freeIndex (x : List Instr) : (s.setPending x).freeIndex = s.freeIndex := rfl
@[simp] theorem State.setPending_pending (x : List Instr) : (s.setPending x).pending = x := rfl
@[simp] theorem State.setPending_twice (x y : List Instr) : (s.setPending x).setPending y = s.setPending y := rfl
@[simp] theorem State.setPending_prof (x : List Instr) : (s.setPending x).prof = s.prof := rfl
@[simp] theorem State.setPending_horizon (x : List Instr) : (s.setPending x).horizon = s.horizon := rfl
@[simp] theorem State.setPending_now (x : List Instr) : (s.setPending x).now = s.now := rfl
@[simp] theorem State.setPending_tile (x : List Instr) (k : Nat) : (s.setPending x).tile k = s.tile k := rfl

end

end Sys2Proof.Machine
end

