-- ==== Sys2Proof/Laws/Ops.lean ====
section
/-! SUPPORT. What each shared operation answers, said once: tile columns, attention, the write queue, the pending lists
and the commands' records. A claim cites these and unfolds no operation. -/

set_option Elab.async false

namespace Sys2Proof.Machine

/-! ## Tile columns -/

@[simp] theorem State.tile_setTile_same {s : State} {k : Nat} (t : Tile) (h : k < s.tiles.length) :
    (s.setTile k t).tile k = t := by
  simp [State.setTile, State.tile, State.setTiles, h]

@[simp] theorem State.tile_setTile_ne {s : State} {k j : Nat} (t : Tile) (h : j ≠ k) :
    (s.setTile k t).tile j = s.tile j := by
  simp [State.setTile, State.tile, State.setTiles, Ne.symm h]

@[simp] theorem State.setTile_tiles_length (s : State) (k : Nat) (t : Tile) :
    (s.setTile k t).tiles.length = s.tiles.length := by
  simp [State.setTile, State.setTiles]

@[simp] theorem State.tile_updTile_same {s : State} {k : Nat} (f : Tile → Tile) (h : k < s.tiles.length) :
    (s.updTile k f).tile k = f (s.tile k) := State.tile_setTile_same _ h

@[simp] theorem State.tile_updTile_ne {s : State} {k j : Nat} (f : Tile → Tile) (h : j ≠ k) :
    (s.updTile k f).tile j = s.tile j := State.tile_setTile_ne _ h

@[simp] theorem State.updTile_tiles_length (s : State) (k : Nat) (f : Tile → Tile) :
    (s.updTile k f).tiles.length = s.tiles.length := State.setTile_tiles_length s k _

@[simp] theorem State.setTile_mem (s : State) (k : Nat) (t : Tile) : (s.setTile k t).mem = s.mem := rfl
@[simp] theorem State.setTile_profile (s : State) (k : Nat) (t : Tile) : (s.setTile k t).profile = s.profile := rfl
@[simp] theorem State.setTile_ftg (s : State) (k : Nat) (t : Tile) : (s.setTile k t).ftg = s.ftg := rfl
@[simp] theorem State.setTile_follower (s : State) (k : Nat) (t : Tile) : (s.setTile k t).follower = s.follower := rfl
@[simp] theorem State.setTile_scheduler (s : State) (k : Nat) (t : Tile) : (s.setTile k t).scheduler = s.scheduler := rfl
@[simp] theorem State.setTile_commit (s : State) (k : Nat) (t : Tile) : (s.setTile k t).commit = s.commit := rfl
@[simp] theorem State.setTile_arbiter (s : State) (k : Nat) (t : Tile) : (s.setTile k t).arbiter = s.arbiter := rfl
@[simp] theorem State.setTile_port (s : State) (k : Nat) (t : Tile) : (s.setTile k t).port = s.port := rfl
@[simp] theorem State.setTile_ambient (s : State) (k : Nat) (t : Tile) : (s.setTile k t).ambient = s.ambient := rfl
@[simp] theorem State.setTile_store (s : State) (k : Nat) (t : Tile) : (s.setTile k t).store = s.store := rfl
@[simp] theorem State.setTile_report (s : State) (k : Nat) (t : Tile) : (s.setTile k t).report = s.report := rfl
@[simp] theorem State.setTile_window (s : State) (k : Nat) (t : Tile) : (s.setTile k t).window = s.window := rfl
@[simp] theorem State.setTile_pins (s : State) (k : Nat) (t : Tile) : (s.setTile k t).pins = s.pins := rfl
@[simp] theorem State.setTile_freeIndex (s : State) (k : Nat) (t : Tile) : (s.setTile k t).freeIndex = s.freeIndex := rfl
@[simp] theorem State.setTile_pending (s : State) (k : Nat) (t : Tile) : (s.setTile k t).pending = s.pending := rfl
@[simp] theorem State.setTile_prof (s : State) (k : Nat) (t : Tile) : (s.setTile k t).prof = s.prof := rfl
@[simp] theorem State.setTile_horizon (s : State) (k : Nat) (t : Tile) : (s.setTile k t).horizon = s.horizon := rfl
@[simp] theorem State.setTile_now (s : State) (k : Nat) (t : Tile) : (s.setTile k t).now = s.now := rfl
@[simp] theorem State.updTile_mem (s : State) (k : Nat) (f : Tile → Tile) : (s.updTile k f).mem = s.mem := rfl
@[simp] theorem State.updTile_profile (s : State) (k : Nat) (f : Tile → Tile) : (s.updTile k f).profile = s.profile := rfl
@[simp] theorem State.updTile_ftg (s : State) (k : Nat) (f : Tile → Tile) : (s.updTile k f).ftg = s.ftg := rfl
@[simp] theorem State.updTile_follower (s : State) (k : Nat) (f : Tile → Tile) : (s.updTile k f).follower = s.follower := rfl
@[simp] theorem State.updTile_scheduler (s : State) (k : Nat) (f : Tile → Tile) : (s.updTile k f).scheduler = s.scheduler := rfl
@[simp] theorem State.updTile_commit (s : State) (k : Nat) (f : Tile → Tile) : (s.updTile k f).commit = s.commit := rfl
@[simp] theorem State.updTile_arbiter (s : State) (k : Nat) (f : Tile → Tile) : (s.updTile k f).arbiter = s.arbiter := rfl
@[simp] theorem State.updTile_port (s : State) (k : Nat) (f : Tile → Tile) : (s.updTile k f).port = s.port := rfl
@[simp] theorem State.updTile_ambient (s : State) (k : Nat) (f : Tile → Tile) : (s.updTile k f).ambient = s.ambient := rfl
@[simp] theorem State.updTile_store (s : State) (k : Nat) (f : Tile → Tile) : (s.updTile k f).store = s.store := rfl
@[simp] theorem State.updTile_report (s : State) (k : Nat) (f : Tile → Tile) : (s.updTile k f).report = s.report := rfl
@[simp] theorem State.updTile_window (s : State) (k : Nat) (f : Tile → Tile) : (s.updTile k f).window = s.window := rfl
@[simp] theorem State.updTile_pins (s : State) (k : Nat) (f : Tile → Tile) : (s.updTile k f).pins = s.pins := rfl
@[simp] theorem State.updTile_freeIndex (s : State) (k : Nat) (f : Tile → Tile) : (s.updTile k f).freeIndex = s.freeIndex := rfl
@[simp] theorem State.updTile_pending (s : State) (k : Nat) (f : Tile → Tile) : (s.updTile k f).pending = s.pending := rfl
@[simp] theorem State.updTile_prof (s : State) (k : Nat) (f : Tile → Tile) : (s.updTile k f).prof = s.prof := rfl
@[simp] theorem State.updTile_horizon (s : State) (k : Nat) (f : Tile → Tile) : (s.updTile k f).horizon = s.horizon := rfl
@[simp] theorem State.updTile_now (s : State) (k : Nat) (f : Tile → Tile) : (s.updTile k f).now = s.now := rfl
@[simp] theorem State.setTile_flag (s : State) (k : Nat) (t : Tile) (c : Cause) : (s.setTile k t).flag c = s.flag c := rfl
@[simp] theorem State.updTile_flag (s : State) (k : Nat) (f : Tile → Tile) (c : Cause) :
    (s.updTile k f).flag c = s.flag c := rfl

/-- A tile column of an index past the end reads as the reset column. -/
theorem State.tile_of_length_le {s : State} {k : Nat} (h : s.tiles.length ≤ k) : s.tile k = .reset := by
  simp [State.tile, h]

/-- An update of an index past the end changes nothing. -/
theorem State.updTile_of_length_le {s : State} {k : Nat} (f : Tile → Tile) (h : s.tiles.length ≤ k) :
    s.updTile k f = s := by
  simp [State.updTile, State.setTile, State.setTiles, List.set_eq_of_length_le h]

theorem otherTilesKept_refl (k : Nat) (s : State) : OtherTilesKept k s s := ⟨rfl, fun _ _ => rfl⟩

theorem otherTilesKept_setTile (k : Nat) (s : State) (t : Tile) : OtherTilesKept k s (s.setTile k t) :=
  ⟨s.setTile_tiles_length k t, fun _ h => State.tile_setTile_ne t h⟩

theorem otherTilesKept_updTile (k : Nat) (s : State) (f : Tile → Tile) : OtherTilesKept k s (s.updTile k f) :=
  otherTilesKept_setTile k s _

theorem OtherTilesKept.trans {k : Nat} {s t u : State} (h : OtherTilesKept k s t) (g : OtherTilesKept k t u) :
    OtherTilesKept k s u :=
  ⟨g.1.trans h.1, fun j hj => (g.2 j hj).trans (h.2 j hj)⟩

theorem otherTilesKept_of_tiles {k : Nat} {s t : State} (h : t.tiles = s.tiles) : OtherTilesKept k s t :=
  ⟨by rw [h], fun j _ => by simp [State.tile, h]⟩

theorem State.tile_of_tiles {s t : State} (h : t.tiles = s.tiles) (k : Nat) : t.tile k = s.tile k := by
  simp [State.tile, h]

/-! ## Attention (R180, R181) -/

/-- The message of R181 changes nothing of the window but the count of messages. -/
theorem Window.signal_eq (w v : Window) : w.signal v = { v with messages := (w.signal v).messages } := by
  simp only [Window.signal]; split <;> rfl

@[simp] theorem Window.signal_attn (w v : Window) : (w.signal v).attn = v.attn := by rw [Window.signal_eq]
@[simp] theorem Window.signal_mask (w v : Window) : (w.signal v).mask = v.mask := by rw [Window.signal_eq]
@[simp] theorem Window.signal_main (w v : Window) : (w.signal v).main = v.main := by rw [Window.signal_eq]
@[simp] theorem Window.signal_side (w v : Window) : (w.signal v).side = v.side := by rw [Window.signal_eq]
@[simp] theorem Window.signal_arg (w v : Window) : (w.signal v).arg = v.arg := by rw [Window.signal_eq]
@[simp] theorem Window.signal_wall (w v : Window) : (w.signal v).wall = v.wall := by rw [Window.signal_eq]
@[simp] theorem Window.signal_adoption (w v : Window) : (w.signal v).adoption = v.adoption := by rw [Window.signal_eq]
@[simp] theorem Window.signal_resetTaken (w v : Window) : (w.signal v).resetTaken = v.resetTaken := by
  rw [Window.signal_eq]
@[simp] theorem Window.signal_readData (w v : Window) : (w.signal v).readData = v.readData := by rw [Window.signal_eq]
@[simp] theorem Window.signal_signalling (w v : Window) : (w.signal v).signalling = v.signalling := by
  rw [Window.signal_eq]

@[simp] theorem raise_attn (c : Cause) (s : State) : (raise c s).window.attn = s.window.attn ||| c.mask := by
  simp [raise]
@[simp] theorem raise_mask (c : Cause) (s : State) : (raise c s).window.mask = s.window.mask := by simp [raise]
@[simp] theorem raise_main (c : Cause) (s : State) : (raise c s).window.main = s.window.main := by simp [raise]
@[simp] theorem raise_side (c : Cause) (s : State) : (raise c s).window.side = s.window.side := by simp [raise]
@[simp] theorem raise_arg (c : Cause) (s : State) : (raise c s).window.arg = s.window.arg := by simp [raise]
@[simp] theorem raise_wall (c : Cause) (s : State) : (raise c s).window.wall = s.window.wall := by simp [raise]
@[simp] theorem raise_adoption (c : Cause) (s : State) : (raise c s).window.adoption = s.window.adoption := by
  simp [raise]
@[simp] theorem raise_resetTaken (c : Cause) (s : State) : (raise c s).window.resetTaken = s.window.resetTaken := by
  simp [raise]
@[simp] theorem raise_signalling (c : Cause) (s : State) : (raise c s).window.signalling = s.window.signalling := by
  simp [raise]
@[simp] theorem raise_profile (c : Cause) (s : State) : (raise c s).profile = s.profile := rfl
@[simp] theorem raise_ftg (c : Cause) (s : State) : (raise c s).ftg = s.ftg := rfl
@[simp] theorem raise_follower (c : Cause) (s : State) : (raise c s).follower = s.follower := rfl
@[simp] theorem raise_scheduler (c : Cause) (s : State) : (raise c s).scheduler = s.scheduler := rfl
@[simp] theorem raise_commit (c : Cause) (s : State) : (raise c s).commit = s.commit := rfl
@[simp] theorem raise_tiles (c : Cause) (s : State) : (raise c s).tiles = s.tiles := rfl
@[simp] theorem raise_tile (c : Cause) (s : State) (k : Nat) : (raise c s).tile k = s.tile k := rfl
@[simp] theorem raise_ambient (c : Cause) (s : State) : (raise c s).ambient = s.ambient := rfl
@[simp] theorem raise_store (c : Cause) (s : State) : (raise c s).store = s.store := rfl
@[simp] theorem raise_report (c : Cause) (s : State) : (raise c s).report = s.report := rfl
@[simp] theorem raise_prof (c : Cause) (s : State) : (raise c s).prof = s.prof := rfl
@[simp] theorem raise_now (c : Cause) (s : State) : (raise c s).now = s.now := rfl
@[simp] theorem raise_horizon (c : Cause) (s : State) : (raise c s).horizon = s.horizon := rfl

@[simp] theorem State.setMem_flag (s : State) (x : List Host.Cell) (c : Cause) : (s.setMem x).flag c = s.flag c := rfl
@[simp] theorem State.setProfile_flag (s : State) (x : Option Profile) (c : Cause) : (s.setProfile x).flag c = s.flag c := rfl
@[simp] theorem State.setFtg_flag (s : State) (x : Ftg) (c : Cause) : (s.setFtg x).flag c = s.flag c := rfl
@[simp] theorem State.setFollower_flag (s : State) (x : Follower) (c : Cause) : (s.setFollower x).flag c = s.flag c := rfl
@[simp] theorem State.setScheduler_flag (s : State) (x : Scheduler) (c : Cause) : (s.setScheduler x).flag c = s.flag c := rfl
@[simp] theorem State.setCommit_flag (s : State) (x : CommitUnit) (c : Cause) : (s.setCommit x).flag c = s.flag c := rfl
@[simp] theorem State.setTiles_flag (s : State) (x : List Tile) (c : Cause) : (s.setTiles x).flag c = s.flag c := rfl
@[simp] theorem State.setArbiter_flag (s : State) (x : Arbiter) (c : Cause) : (s.setArbiter x).flag c = s.flag c := rfl
@[simp] theorem State.setPort_flag (s : State) (x : HostPort) (c : Cause) : (s.setPort x).flag c = s.flag c := rfl
@[simp] theorem State.setAmbient_flag (s : State) (x : AmbientUnit) (c : Cause) : (s.setAmbient x).flag c = s.flag c := rfl
@[simp] theorem State.setStore_flag (s : State) (x : Store) (c : Cause) : (s.setStore x).flag c = s.flag c := rfl
@[simp] theorem State.setReport_flag (s : State) (x : Report) (c : Cause) : (s.setReport x).flag c = s.flag c := rfl
@[simp] theorem State.setPins_flag (s : State) (x : Pins) (c : Cause) : (s.setPins x).flag c = s.flag c := rfl
@[simp] theorem State.setFreeIndex_flag (s : State) (x : Nat) (c : Cause) : (s.setFreeIndex x).flag c = s.flag c := rfl
@[simp] theorem State.setPending_flag (s : State) (x : List Instr) (c : Cause) : (s.setPending x).flag c = s.flag c := rfl

/-- A flag is a value of the register window alone. -/
theorem State.flag_of_window {s t : State} (h : t.window = s.window) (c : Cause) : t.flag c = s.flag c := by
  simp [State.flag, h]

/-- A flag is a bit of ATTN. -/
theorem State.flag_eq (s : State) (c : Cause) : s.flag c = s.window.attn.getLsbD c.bit := by
  simp only [State.flag]
  generalize s.window.attn = a
  revert a
  cases c <;> decide

/-- A cause raised has its flag set (R180). -/
@[simp] theorem flag_raise_same (c : Cause) (s : State) : (raise c s).flag c = true := by
  simp only [State.flag_eq, raise_attn, BitVec.getLsbD_or]
  cases c <;> simp [Cause.mask, Cause.bit]

/-- A cause raised leaves the other flags as they were (R180). -/
theorem flag_raise_ne {c d : Cause} (h : d ≠ c) (s : State) : (raise c s).flag d = s.flag d := by
  simp only [State.flag_eq, raise_attn, BitVec.getLsbD_or]
  cases c <;> cases d <;> first | exact absurd rfl h | simp [Cause.mask, Cause.bit]

/-- DRY apart, the step that ends in `after` is `after` (R44). -/
theorem dryEdge_eq (before after : State) : dryEdge before after = after ∨ dryEdge before after = raise .dry after := by
  unfold dryEdge; split
  · exact .inr rfl
  · exact .inl rfl

theorem onlyIn_dryEdge_after (before after : State) : OnlyIn [.window] after (dryEdge before after) := by
  rcases dryEdge_eq before after with h | h <;> rw [h]
  · exact .refl _ _
  · exact onlyIn_raise _ _

/-- DRY is raised when its condition begins to hold (R44). -/
theorem flag_dryEdge {before after : State} (h : before.dry = false) (h' : after.dry = true) :
    (dryEdge before after).flag .dry = true := by
  simp [dryEdge, h, h']

/-- Nothing is raised when the condition of DRY does not hold after the step. -/
theorem dryEdge_of_not_dry {before after : State} (h : after.dry = false) : dryEdge before after = after := by
  simp [dryEdge, h]

/-! ## The write queue (R52, R79) -/

@[simp] theorem enqueue_report (item : QueueItem) (s : State) :
    (enqueue item s).report = { s.report with queue := s.report.queue ++ [item] } := rfl

@[simp] theorem enqueueOutcome_report (record : Nat) (kind : OutcomeKind) (s : State) :
    (enqueueOutcome record kind s).report =
      { s.report with queue := s.report.queue ++ [.outcome ⟨record, kind⟩ false] } := rfl

/-- A write handed on is in the write queue or at the tail of the hand-off list (R79). -/
theorem handOn_cases (record : Nat) (kind : OutcomeKind) (s : State) :
    handOn record kind s = enqueueOutcome record kind s ∨
      handOn record kind s = s.setCommit { s.commit with handoff := s.commit.handoff ++ [⟨record, kind⟩] } := by
  unfold handOn; split
  · exact .inl rfl
  · exact .inr rfl

/-- A fault record of a hold is in the write queue or waits for a place (R52). -/
theorem handedFault_reportHold (f : FaultRecord) {s t : State} (h : t.report = s.report) :
    HandedFault f s (reportHold f t) := by
  unfold reportHold HandedFault; split
  · left; simp [h]
  · right; simp [h]

/-! ## Pending lists (R87) -/

theorem mem_insertSwitch (sw x : Switch) (l : List Switch) : x ∈ insertSwitch sw l ↔ x = sw ∨ x ∈ l := by
  induction l with
  | nil => simp [insertSwitch]
  | cons y rest ih =>
    unfold insertSwitch
    split
    · simp [ih, or_left_comm]
    · simp

/-! ## Commands (R176, R177) -/

/-- A command taken when no other is busy takes the main record, and the side record is cleared (R176). -/
theorem recordCommand_idle (c : Command) (r : Result) {s : State} (h : s.window.busy = false) :
    recordCommand c r s = s.setWindow { s.window with main := some ⟨c.code, r⟩, side := none } := by
  simp [recordCommand, Window.record, h]

/-- A taken command does its work. -/
theorem command_taken {c : Command} {s : State} (take : State → State) (h : judge c s = none) :
    command c take s = take s := by
  simp [command, h]

/-- A refused command changes the records alone. -/
theorem command_refused {c : Command} {s : State} {r : Result} (take : State → State) (h : judge c s = some r) :
    command c take s = recordCommand c r s := by
  simp [command, h]

theorem badAddress_iff (a : Nat) : badAddress a = false ↔ GoodAddress a := by
  rw [badAddress, decide_eq_false_iff_not, GoodAddress, Config.showBytes]
  omega

theorem badAddress_of_not_good {a : Nat} (h : ¬ GoodAddress a) : badAddress a = true := by
  cases hb : badAddress a
  · exact absurd ((badAddress_iff a).mp hb) h
  · rfl

end Sys2Proof.Machine
end

