-- ==== Sys2Proof/Laws/Scheduler.lean ====
section
/-! SUPPORT. How entries leave the look-ahead queue (R41, R73, R74), said once: what a leaving entry, a departure and the
receiving of departing writes do to the queue, the write queue and the Chain Follower; and when an entry is armed (R67). -/

set_option Elab.async false

namespace Sys2Proof.Machine

/-- What a working-field change keeps of an entry. -/
def Entry.keeps (e e' : Entry) : Prop :=
  e'.cue = e.cue ∧ e'.departing = e.departing ∧ e'.eventFrame = e.eventFrame ∧ e'.slackUsed = e.slackUsed

/-- An entry that leaves takes every entry of its record away and keeps the others, but for AT targets (R65, R74). -/
theorem leaveQueue_scheduler (r : Nat) (s : State) :
    ∃ f : Entry → Entry, (∀ e : Entry, e.keeps (f e)) ∧ (leaveQueue r s).scheduler =
      { s.scheduler with queue := (s.scheduler.queue.filter (fun e => e.cue.record != r)).map f } := by
  unfold leaveQueue
  rw [(onlyIn_followerOnLeave _).scheduler]
  refine ⟨(fun e => if e.readyToFix s.now then e.fixTarget s else e) ∘
    (fun e => { e with clockAhead := e.clockAhead.filter (· != r) }), ?_, ?_⟩
  · intro e
    simp only [Function.comp_apply]
    split <;> exact ⟨rfl, rfl, rfl, rfl⟩
  · simp only [fixTargets, mapQueue, State.setScheduler_scheduler, List.map_map]
    rfl

theorem leaveQueue_lastScene (r : Nat) (s : State) :
    (leaveQueue r s).scheduler.lastScene = s.scheduler.lastScene := by
  obtain ⟨f, -, h⟩ := leaveQueue_scheduler r s
  rw [h]

/-- The Chain Follower is told of an entry that has left only in FULL and WAIT_REUSE (R41). -/
theorem followerOnLeave_follower {s : State} (h : s.follower.state ≠ .full) (h' : s.follower.state ≠ .waitReuse) :
    (followerOnLeave s).follower = s.follower := by
  unfold followerOnLeave
  cases hs : s.follower.state <;> simp_all

theorem leaveQueue_follower (r : Nat) {s : State} (h : s.follower.state ≠ .full) (h' : s.follower.state ≠ .waitReuse) :
    (leaveQueue r s).follower = s.follower := by
  unfold leaveQueue
  exact followerOnLeave_follower h h'

/-- A departing write is received when one waits and a place is free, and otherwise nothing happens (R73). -/
theorem receiveDeparting_cases (s : State) :
    receiveDeparting s = s ∨ ∃ r d, s.oldestDeparting = some (r, d) ∧ 0 < s.freePlaces ∧
      receiveDeparting s = leaveQueue r (enqueueOutcome r d.outcome s) := by
  unfold receiveDeparting
  split
  · exact .inl rfl
  · rename_i r d h
    split
    · rename_i h2
      exact .inr ⟨r, d, h, h2, rfl⟩
    · exact .inl rfl

/-- An entry stands unchanged but for AT targets in `t`, or it was departing and its write has been received. -/
def EntryFate (t : State) (e : Entry) : Prop :=
  (∃ e' ∈ t.scheduler.queue, e.keeps e') ∨
  ∃ d, e.departing = some d ∧ QueueItem.outcome ⟨e.cue.record, d.outcome⟩ false ∈ t.report.queue ∧
    ∀ x ∈ t.scheduler.queue, x.cue.record ≠ e.cue.record

/-- What receiving departing writes does: records stay distinct, the write queue only grows, every entry left was there,
and every entry there stands or has been received. -/
structure Drained (s t : State) : Prop where
  distinct : (t.scheduler.queue.map (·.cue.record)).Nodup
  grown : ∃ l, t.report.queue = s.report.queue ++ l
  left : ∀ x ∈ t.scheduler.queue, ∃ e ∈ s.scheduler.queue, e.keeps x
  fate : ∀ e ∈ s.scheduler.queue, EntryFate t e

theorem Entry.keeps_refl (e : Entry) : e.keeps e := ⟨rfl, rfl, rfl, rfl⟩

theorem Entry.keeps_trans {a b c : Entry} (h : a.keeps b) (k : b.keeps c) : a.keeps c :=
  ⟨k.1.trans h.1, k.2.1.trans h.2.1, k.2.2.1.trans h.2.2.1, k.2.2.2.trans h.2.2.2⟩

theorem drained_refl {s : State} (h : (s.scheduler.queue.map (·.cue.record)).Nodup) : Drained s s :=
  ⟨h, ⟨[], by simp⟩, fun x hx => ⟨x, hx, x.keeps_refl⟩, fun x hx => .inl ⟨x, hx, x.keeps_refl⟩⟩

theorem drained_trans {s t u : State} (h : Drained s t) (k : Drained t u) : Drained s u := by
  obtain ⟨l, hl⟩ := h.grown
  obtain ⟨m, hm⟩ := k.grown
  refine ⟨k.distinct, ⟨l ++ m, by rw [hm, hl, List.append_assoc]⟩, ?_, ?_⟩
  · intro x hx
    obtain ⟨e, he, h1⟩ := k.left x hx
    obtain ⟨e', he', h2⟩ := h.left e he
    exact ⟨e', he', Entry.keeps_trans h2 h1⟩
  · intro e he
    rcases h.fate e he with ⟨e', he', h1⟩ | ⟨d, h1, h2, h3⟩
    · rcases k.fate e' he' with ⟨e2, he2, k1⟩ | ⟨d, k1, k2, k3⟩
      · exact .inl ⟨e2, he2, Entry.keeps_trans h1 k1⟩
      · rw [h1.1] at k2 k3
        exact .inr ⟨d, by rw [← h1.2.1, k1], k2, k3⟩
    · refine .inr ⟨d, h1, by rw [hm]; exact List.mem_append_left _ h2, ?_⟩
      intro x hx
      obtain ⟨y, hy, e1⟩ := k.left x hx
      rw [e1.1]
      exact h3 y hy

theorem drained_receiveDeparting {s : State} (h : (s.scheduler.queue.map (·.cue.record)).Nodup) :
    Drained s (receiveDeparting s) := by
  rcases receiveDeparting_cases s with e | ⟨r, d, h1, -, e⟩
  · rw [e]
    exact drained_refl h
  · rw [e]
    obtain ⟨f, hf, hs⟩ := leaveQueue_scheduler r (enqueueOutcome r d.outcome s)
    have hr : (leaveQueue r (enqueueOutcome r d.outcome s)).report = (enqueueOutcome r d.outcome s).report :=
      (onlyIn_leaveQueue _ _).report
    have hq : (enqueueOutcome r d.outcome s).scheduler = s.scheduler := rfl
    rw [hq] at hs
    refine ⟨?_, ⟨_, by rw [hr]; rfl⟩, ?_, ?_⟩
    · rw [hs]
      simp only [List.map_map]
      have : ((fun x => x.cue.record) ∘ f) = (fun x : Entry => x.cue.record) := by
        funext x
        simp [(hf x).1]
      rw [this]
      exact h.sublist (List.filter_sublist.map _)
    · intro x hx
      rw [hs] at hx
      simp only [List.mem_map, List.mem_filter] at hx
      obtain ⟨e, ⟨he, _⟩, rfl⟩ := hx
      exact ⟨e, he, hf e⟩
    · intro x hx
      by_cases hxr : x.cue.record = r
      · right
        obtain ⟨y, hy, hyd⟩ := List.exists_of_findSome?_eq_some h1
        simp only [Option.map_eq_some_iff, Prod.mk.injEq] at hyd
        obtain ⟨d', h3, h4, rfl⟩ := hyd
        have hxy : x = y := List.inj_on_of_nodup_map h hx hy (by rw [hxr, h4])
        subst hxy
        refine ⟨d', h3, by rw [hr]; simp [hxr], ?_⟩
        intro z hz
        rw [hs] at hz
        simp only [List.mem_map, List.mem_filter, bne_iff_ne] at hz
        obtain ⟨w, ⟨_, hw⟩, rfl⟩ := hz
        rw [(hf w).1, hxr]
        exact hw
      · left
        rw [hs]
        exact ⟨f x, List.mem_map_of_mem (List.mem_filter.mpr ⟨hx, by simp [hxr]⟩), hf x⟩

theorem drained_drainDeparting (n : Nat) {s : State} (h : (s.scheduler.queue.map (·.cue.record)).Nodup) :
    Drained s (drainDeparting n s) := by
  induction n generalizing s with
  | zero => exact drained_refl h
  | succ n ih => exact drained_trans (drained_receiveDeparting h) (ih (drained_receiveDeparting h).distinct)

/-- The entries a test picks depart, with the departures that stood before kept, and the other entries stand (R73). -/
theorem depart_spec (pick : Entry → Bool) (why : Departure) {s : State}
    (h : (s.scheduler.queue.map (·.cue.record)).Nodup) :
    (∀ e ∈ s.scheduler.queue, e.departing = none → pick e = true → Departed e.cue.record why (depart pick why s)) ∧
    (∀ e ∈ s.scheduler.queue, ∀ d, e.departing = some d → Departed e.cue.record d (depart pick why s)) ∧
    (∀ e ∈ s.scheduler.queue, e.departing = none → pick e = false →
      ∃ e' ∈ (depart pick why s).scheduler.queue, e.keeps e') ∧
    (∀ x ∈ (depart pick why s).scheduler.queue, ∃ e ∈ s.scheduler.queue,
      x.cue = e.cue ∧ x.departing = if e.departing.isNone && pick e then some why else e.departing) := by
  have hn : ((mapQueue (fun e => if e.departing.isNone && pick e then { e with departing := some why } else e)
      s).scheduler.queue.map (·.cue.record)).Nodup := by
    simp only [mapQueue, State.setScheduler_scheduler, List.map_map]
    convert h using 2
    funext e
    simp only [Function.comp_apply]
    split <;> rfl
  have hd := drained_drainDeparting
    (mapQueue (fun e => if e.departing.isNone && pick e then { e with departing := some why } else e)
      s).scheduler.queue.length hn
  have hm : ∀ e ∈ s.scheduler.queue,
      (if e.departing.isNone && pick e then { e with departing := some why } else e) ∈
        (mapQueue (fun e => if e.departing.isNone && pick e then { e with departing := some why } else e)
          s).scheduler.queue := by
    intro e he
    simp only [mapQueue, State.setScheduler_scheduler]
    exact List.mem_map_of_mem he
  change (∀ e ∈ s.scheduler.queue, e.departing = none → pick e = true → Departed e.cue.record why (drainDeparting _ _)) ∧
    (∀ e ∈ s.scheduler.queue, ∀ d, e.departing = some d → Departed e.cue.record d (drainDeparting _ _)) ∧
    (∀ e ∈ s.scheduler.queue, e.departing = none → pick e = false →
      ∃ e' ∈ (drainDeparting _ _).scheduler.queue, e.keeps e') ∧
    (∀ x ∈ (drainDeparting _ _).scheduler.queue, ∃ e ∈ s.scheduler.queue,
      x.cue = e.cue ∧ x.departing = if e.departing.isNone && pick e then some why else e.departing)
  refine ⟨?_, ?_, ?_, ?_⟩
  · intro e he h1 h2
    have := hd.fate _ (hm e he)
    simp only [h1, h2, Option.isNone_none, Bool.and_self, if_true] at this
    rcases this with ⟨e', he', k⟩ | ⟨d, k1, k2, k3⟩
    · exact .inl ⟨e', he', by rw [k.1], k.2.1⟩
    · simp only [Option.some.injEq] at k1
      subst k1
      exact .inr ⟨k2, k3⟩
  · intro e he d h1
    have := hd.fate _ (hm e he)
    simp only [h1, Option.isNone_some, Bool.false_and, Bool.false_eq_true, if_false] at this
    rcases this with ⟨e', he', k⟩ | ⟨d', k1, k2, k3⟩
    · exact .inl ⟨e', he', by rw [k.1], by rw [k.2.1, h1]⟩
    · rw [h1, Option.some.injEq] at k1
      subst k1
      exact .inr ⟨k2, k3⟩
  · intro e he h1 h2
    have := hd.fate _ (hm e he)
    simp only [h1, h2, Option.isNone_none, Bool.and_false, Bool.false_eq_true, if_false] at this
    rcases this with k | ⟨d, k1, -, -⟩
    · exact k
    · rw [h1] at k1
      exact absurd k1 (by simp)
  · intro x hx
    obtain ⟨e, he, k⟩ := hd.left x hx
    simp only [mapQueue, State.setScheduler_scheduler, List.mem_map] at he
    obtain ⟨y, hy, rfl⟩ := he
    refine ⟨y, hy, ?_, ?_⟩
    · rw [k.1]
      split <;> rfl
    · rw [k.2.1]
      split <;> rfl

/-- Every entry left after departures was there before, departing if it was picked or was departing already. -/
theorem depart_left (pick : Entry → Bool) (why : Departure) (s : State) :
    ∀ x ∈ (depart pick why s).scheduler.queue, ∃ e ∈ s.scheduler.queue,
      x.cue = e.cue ∧ x.departing = if e.departing.isNone && pick e then some why else e.departing := by
  have one : ∀ u : State, ∀ x ∈ (receiveDeparting u).scheduler.queue, ∃ e ∈ u.scheduler.queue, e.keeps x := by
    intro u x hx
    rcases receiveDeparting_cases u with e | ⟨r, d, -, -, e⟩
    · rw [e] at hx
      exact ⟨x, hx, x.keeps_refl⟩
    · rw [e] at hx
      obtain ⟨f, hf, hs⟩ := leaveQueue_scheduler r (enqueueOutcome r d.outcome u)
      rw [hs] at hx
      simp only [List.mem_map, List.mem_filter] at hx
      obtain ⟨y, ⟨hy, _⟩, rfl⟩ := hx
      exact ⟨y, hy, hf y⟩
  have key : ∀ n (u : State), ∀ x ∈ (drainDeparting n u).scheduler.queue, ∃ e ∈ u.scheduler.queue, e.keeps x := by
    intro n
    induction n with
    | zero => exact fun u x hx => ⟨x, hx, x.keeps_refl⟩
    | succ n ih =>
      intro u x hx
      obtain ⟨e, he, h1⟩ := ih _ x hx
      obtain ⟨e', he', h2⟩ := one u e he
      exact ⟨e', he', Entry.keeps_trans h2 h1⟩
  intro x hx
  obtain ⟨e, he, k⟩ := key _ _ x hx
  simp only [mapQueue, State.setScheduler_scheduler, List.mem_map] at he
  obtain ⟨y, hy, rfl⟩ := he
  refine ⟨y, hy, ?_, ?_⟩
  · rw [k.1]
    split <;> rfl
  · rw [k.2.1]
    split <;> rfl

theorem receiveDeparting_follower {s : State} (h : s.follower.state ≠ .full) (h' : s.follower.state ≠ .waitReuse) :
    (receiveDeparting s).follower = s.follower := by
  rcases receiveDeparting_cases s with e | ⟨r, d, -, -, e⟩
  · rw [e]
  · rw [e]
    exact leaveQueue_follower r h h'

/-- Departures leave the Chain Follower alone but in FULL and WAIT_REUSE (R41). -/
theorem depart_follower (pick : Entry → Bool) (why : Departure) {s : State} (h : s.follower.state ≠ .full)
    (h' : s.follower.state ≠ .waitReuse) : (depart pick why s).follower = s.follower := by
  have key : ∀ n (u : State), u.follower = s.follower → (drainDeparting n u).follower = s.follower := by
    intro n
    induction n with
    | zero => exact fun u hu => hu
    | succ n ih =>
      intro u hu
      exact ih _ ((receiveDeparting_follower (by rw [hu]; exact h) (by rw [hu]; exact h')).trans hu)
  exact key _ _ rfl

/-- Departures leave the anchor and the last committed scene and frame alone. -/
theorem depart_anchor (pick : Entry → Bool) (why : Departure) (s : State) :
    (depart pick why s).scheduler = { s.scheduler with queue := (depart pick why s).scheduler.queue } := by
  have key : ∀ n (u : State), u.scheduler = { s.scheduler with queue := u.scheduler.queue } →
      (drainDeparting n u).scheduler = { s.scheduler with queue := (drainDeparting n u).scheduler.queue } := by
    intro n
    induction n with
    | zero => exact fun u hu => hu
    | succ n ih =>
      intro u hu
      refine ih _ ?_
      rcases receiveDeparting_cases u with e | ⟨r, d, -, -, e⟩
      · rw [e]
        exact hu
      · rw [e]
        obtain ⟨f, -, hs⟩ := leaveQueue_scheduler r (enqueueOutcome r d.outcome u)
        rw [hs]
        show _ = _
        have hq : (enqueueOutcome r d.outcome u).scheduler = u.scheduler := rfl
        rw [hq, hu]
  exact key _ _ rfl

/-- An evaluated entry stands in the queue and is not departing (R54, R60). -/
theorem mem_evals_entry {s : State} {v : Eval} (h : v ∈ s.evals) :
    v.entry ∈ s.scheduler.queue ∧ v.entry.departing = none := by
  have key : ∀ (floor : Nat) (l : List Entry) (a : Ahead), ∀ v ∈ evalFrom floor a l, v.entry ∈ l := by
    intro floor l
    induction l with
    | nil => intro a v hv; simp [evalFrom] at hv
    | cons e rest ih =>
      intro a v hv
      simp only [evalFrom, List.mem_cons] at hv
      rcases hv with rfl | hv
      · simp [evalEntry]
      · exact List.mem_cons_of_mem _ (ih _ v hv)
  have := key _ _ _ v h
  simp only [List.mem_filter, Option.isNone_iff_eq_none] at this
  exact this

/-! ## The oldest entry -/

/-- The oldest entry is the first that is not departing, evaluated behind what has committed. -/
theorem oldest_eq (s : State) : s.oldest =
    ((s.scheduler.queue.filter (·.departing.isNone)).head?).map (evalEntry (s.now + s.horizon) s.scheduler.before) := by
  unfold State.oldest State.evals
  cases s.scheduler.queue.filter (·.departing.isNone) <;> rfl

/-- The model's armed entry is the one R67 calls armed. -/
theorem armedFor_eq_some (s : State) {mode : StartMode} (event : mode.isEvent = true) (e : Entry) :
    s.armedFor mode = some e ↔ Armed mode s e := by
  unfold State.armedFor State.armed Armed
  rw [oldest_eq]
  cases h : (s.scheduler.queue.filter (·.departing.isNone)).head? with
  | none => simp
  | some x =>
    have hA : (evalEntry (s.now + s.horizon) s.scheduler.before x).ref.waitBase = some (waitsFrom s) := by
      show s.scheduler.before.ref.waitBase = _
      unfold Scheduler.before waitsFrom
      cases s.scheduler.lastScene with
      | none => rfl
      | some l => cases hd : l.dwellEnd <;> simp [LastScene.refEnd, hd, RefEnd.waitBase]
    have hv : x.cue.mode.isEvent = true →
        ((evalEntry (s.now + s.horizon) s.scheduler.before x).vEff.isNone = true ↔ x.eventFrame = none) := by
      intro hm
      cases hx : x.cue.mode <;> cases hf : x.eventFrame <;>
        simp [StartMode.isEvent, evalEntry, Scheduler.before, Entry.derived, hx, hf] at hm ⊢
    have he : (evalEntry (s.now + s.horizon) s.scheduler.before x).entry = x := rfl
    simp only [Option.map_some, hA, he, Option.some.injEq]
    constructor
    · intro h1
      split at h1
      · rename_i y hy
        simp only [Option.ite_none_right_eq_some, Bool.and_eq_true, decide_eq_true_eq, Option.some.injEq] at hy h1
        obtain ⟨⟨⟨hm, hn⟩, ha⟩, rfl⟩ := hy
        obtain ⟨hk, rfl⟩ := h1
        exact ⟨rfl, hk, (hv hm).1 hn, ha⟩
      · cases h1
    · rintro ⟨rfl, hk, hn, ha⟩
      have hm : x.cue.mode.isEvent = true := by rw [hk]; exact event
      simp only [hm, (hv hm).2 hn, decide_eq_true ha, Bool.and_self, if_true]
      exact if_pos hk

end Sys2Proof.Machine
end

