-- ==== Sys2Proof/Laws/Commit.lean ====
section
/-! SUPPORT. What placing switches, level requests and the run of attempts do, said once, and when the oldest entry is due (R61,
R78 to R80, R83, R87, R89). -/

set_option Elab.async false

namespace Sys2Proof.Machine

/-- A switch placed changes its tile's pending list alone (R87). -/
theorem placeSwitch_tile {k : Nat} (visible : Nat) (body : SwitchBody) {s : State} (h : k < s.tiles.length) :
    (placeSwitch k visible body s).tile k =
      { s.tile k with switches := insertSwitch ⟨s.switchFrame k visible, body⟩ (s.tile k).switches } :=
  State.tile_updTile_same _ h

theorem otherTilesKept_placeSwitch (k visible : Nat) (body : SwitchBody) (s : State) :
    OtherTilesKept k s (placeSwitch k visible body s) := otherTilesKept_updTile k s _

/-- A level request is placed in every list of the profile's tiles, or it waits and nothing changes (R89). -/
theorem tryLevelRequest_cases {s : State} {q : LevelRequest} (h : s.commit.levelRequest = some q) :
    ((List.range s.prof.tiles).all s.pendingRoom = true ∧ tryLevelRequest s =
      forTiles s.prof.tiles (fun k s => placeSwitch k q.visible (.level q.set) s)
        (countCommit (s.setCommit { s.commit with levelRequest := none }))) ∨
    ((List.range s.prof.tiles).all s.pendingRoom = false ∧ tryLevelRequest s = s) := by
  unfold tryLevelRequest
  rw [h]
  cases ha : (List.range s.prof.tiles).all s.pendingRoom
  · right
    simp
  · left
    simp

/-- A cue that is not a scene commits without a write and without a change to showing table or last scene (R88). -/
theorem commitDue_keeps (v : Eval) (visible : Nat) (s : State) :
    (commitDue v visible s).report = s.report ∧ (commitDue v visible s).commit.showing = s.commit.showing ∧
      (commitDue v visible s).scheduler.lastScene = s.scheduler.lastScene := by
  have hp : ∀ (c : Cue) (visible : Nat) (u : State), (placeDue c visible u).report = u.report ∧
      (placeDue c visible u).commit = u.commit ∧ (placeDue c visible u).scheduler.lastScene = u.scheduler.lastScene := by
    intro c visible u
    refine ⟨(onlyIn_placeDue _ _ _).report, (onlyIn_placeDue _ _ _).commit, ?_⟩
    unfold placeDue
    split
    · rename_i entries _
      have : ∀ (l : List TrimEntry) (w : State),
          (l.foldl (fun s x => placeSwitch x.tile visible (.trim x.street x.dusk) s) w).scheduler = w.scheduler := by
        intro l
        induction l with
        | nil => exact fun w => rfl
        | cons x rest ih => exact fun w => (ih _).trans rfl
      rw [this]
    · rfl
    · rfl
    · rfl
  simp only [commitDue, leaveCommitted]
  refine ⟨?_, ?_, ?_⟩
  · rw [(onlyIn_leaveQueue _ _).report]
    exact (hp _ _ _).1
  · rw [(onlyIn_leaveQueue _ _).commit, State.setScheduler_commit, (hp _ _ _).2.1]
    rfl
  · rw [leaveQueue_lastScene]
    exact (hp _ _ _).2.2

/-- The run of attempts hands on no write, commits no scene by itself and leaves the showing table (R78, R80). -/
theorem attemptRun_keeps (n : Nat) (s : State) :
    (attemptRun n s).report = s.report ∧ (attemptRun n s).commit.showing = s.commit.showing ∧
      (attemptRun n s).scheduler.lastScene = s.scheduler.lastScene := by
  induction n generalizing s with
  | zero => exact ⟨rfl, rfl, rfl⟩
  | succ n ih =>
    have step : ∀ v, (attemptRun n (commitDue v (s.now + s.horizon) s)).report = s.report ∧
        (attemptRun n (commitDue v (s.now + s.horizon) s)).commit.showing = s.commit.showing ∧
        (attemptRun n (commitDue v (s.now + s.horizon) s)).scheduler.lastScene = s.scheduler.lastScene := by
      intro v
      obtain ⟨a, b, c⟩ := ih (commitDue v (s.now + s.horizon) s)
      obtain ⟨a', b', c'⟩ := commitDue_keeps v (s.now + s.horizon) s
      exact ⟨a.trans a', b.trans b', c.trans c'⟩
    unfold attemptRun
    split
    · exact ⟨rfl, rfl, rfl⟩
    · split
      · exact ⟨rfl, rfl, rfl⟩
      · rename_i v _
        split
        · split
          · exact ⟨rfl, rfl, rfl⟩
          · split
            · exact step v
            · exact ⟨rfl, rfl, rfl⟩
          · split
            · exact step v
            · exact ⟨rfl, rfl, rfl⟩
          · split
            · exact step v
            · exact ⟨rfl, rfl, rfl⟩
        · exact ⟨rfl, rfl, rfl⟩

/-! ## Due entries -/

/-- The model's due entry is the one R61 and R78 call due. -/
theorem dueEval_eq_some (s : State) (v : Eval) : s.dueEval = some v ↔ Due s v := by
  unfold State.dueEval State.oldest Due
  cases h : s.evals.head? with
  | none => simp
  | some u =>
    simp only [Bool.and_eq_true, decide_eq_true_eq, Option.ite_none_right_eq_some, Option.some.injEq]
    constructor
    · rintro ⟨k, rfl⟩; exact ⟨rfl, k⟩
    · rintro ⟨rfl, k⟩; exact ⟨k, rfl⟩

theorem dueEval_eq_none (s : State) : s.dueEval = none ↔ ∀ v, ¬ Due s v := by
  simp only [← dueEval_eq_some]
  exact Option.eq_none_iff_forall_ne_some

end Sys2Proof.Machine
end

