-- ==== Sys2Proof/Laws/FrameStart.lean ====
section
/-! SUPPORT. When a frame start is taken, and what its blocks do to one tile column, said once; who may take a free place
of the write queue; which RELEASED writes wait for a fade; and what a failed byte write leaves. -/

set_option Elab.async false

namespace Sys2Proof.Machine

/-! ## When a frame start is taken -/

theorem frameStart_of_stopped {s : State} (h : s.ftg.running = false) : frameStart s = s := by
  simp [frameStart, h]

/-- A frame start that WAIT_LIMIT_SKIP has taken already only ends. -/
theorem frameStart_of_begun {s : State} (run : s.ftg.running = true) (h : s.ftg.begun = true) :
    frameStart s = s.setFtg { s.ftg with begun := false } := by
  simp [frameStart, run, h]

theorem frameStart_of_not_begun {s : State} (run : s.ftg.running = true) (h : s.ftg.begun = false) :
    frameStart s = wholeFrameStart s := by
  simp [frameStart, run, h]

/-- WAIT_LIMIT_SKIP takes the frame start at which the limit of the named wait is met, or does nothing. -/
theorem waitLimitSkip_cases (record : Nat) (s : State) :
    (s.ftg.running = true ∧ s.ftg.begun = false ∧ record ∈ (beginFrame s).expiredWaits (s.now + 1) ∧
      waitLimitSkip record s = markBegun (frameStart s)) ∨
    ((s.ftg.running = false ∨ s.ftg.begun = true ∨ record ∉ (beginFrame s).expiredWaits (s.now + 1)) ∧
      waitLimitSkip record s = s) := by
  unfold waitLimitSkip
  split
  · rename_i h
    exact .inl ⟨h.1, h.2.1, h.2.2, by rw [frameStart_of_not_begun h.1 h.2.1]⟩
  · rename_i h
    refine .inr ⟨?_, rfl⟩
    cases hr : s.ftg.running <;> cases hb : s.ftg.begun <;> simp_all

/-! ## A fold over the tiles -/

theorem forTiles_succ (n : Nat) (f : Nat → State → State) (s : State) :
    forTiles (n + 1) f s = f n (forTiles n f s) := by
  simp [forTiles, List.range_succ, List.foldl_append]

theorem forTiles_length {f : Nat → State → State} (keeps : ∀ j u, OtherTilesKept j u (f j u)) (n : Nat) (s : State) :
    (forTiles n f s).tiles.length = s.tiles.length := by
  induction n with
  | zero => rfl
  | succ n ih => rw [forTiles_succ, (keeps n _).1, ih]

/-- A tile that the fold has not come to is untouched. -/
theorem forTiles_tile_of_le {f : Nat → State → State} (keeps : ∀ j u, OtherTilesKept j u (f j u)) {n k : Nat}
    (s : State) (h : n ≤ k) : (forTiles n f s).tile k = s.tile k := by
  induction n with
  | zero => rfl
  | succ n ih => rw [forTiles_succ, (keeps n _).2 k (by omega), ih (by omega)]

/-- A tile the fold covers is what its own turn makes of it; it comes to that turn untouched. -/
theorem forTiles_tile {f : Nat → State → State} (keeps : ∀ j u, OtherTilesKept j u (f j u)) {n k : Nat}
    (s : State) (h : k < n) : (forTiles n f s).tile k = (f k (forTiles k f s)).tile k := by
  induction n with
  | zero => omega
  | succ n ih =>
    rw [forTiles_succ]
    by_cases e : k = n
    · subst e; rfl
    · rw [(keeps n _).2 k e, ih (by omega)]

/-! ## Links -/

@[simp] theorem Link.sendHeader_state (n : Nat) (l : Link) : (l.sendHeader n).state = l.state := rfl
@[simp] theorem Link.sendHeader_descriptor (n : Nat) (l : Link) : (l.sendHeader n).descriptor = l.descriptor := rfl
@[simp] theorem Link.sendHeader_timer (n : Nat) (l : Link) : (l.sendHeader n).timer = l.timer := rfl
@[simp] theorem Link.sendHeader_joinCount (n : Nat) (l : Link) : (l.sendHeader n).joinCount = l.joinCount := rfl
@[simp] theorem Link.sendHeader_missRun (n : Nat) (l : Link) : (l.sendHeader n).missRun = l.missRun := rfl
@[simp] theorem Link.sendHeader_missCount (n : Nat) (l : Link) : (l.sendHeader n).missCount = l.missCount := rfl
@[simp] theorem Link.sendHeader_startState (n : Nat) (l : Link) : (l.sendHeader n).startState = l.state := rfl
@[simp] theorem Link.sendHeader_echoes (n : Nat) (l : Link) : (l.sendHeader n).echoes = l.echoes := rfl
@[simp] theorem Link.sendHeader_identifyDue (n : Nat) (l : Link) : (l.sendHeader n).identifyDue = false := rfl
@[simp] theorem Link.sendHeader_stepped (n : Nat) (l : Link) : (l.sendHeader n).stepped = l.stepped := rfl
@[simp] theorem Link.sendHeader_header (n : Nat) (l : Link) :
    (l.sendHeader n).header = some ⟨frameTag n, l.identifyDue⟩ := rfl
@[simp] theorem Link.sendHeader_sent (n : Nat) (l : Link) : (l.sendHeader n).sent = l.sent := rfl
@[simp] theorem Link.sendHeader_blackRow (n : Nat) (l : Link) : (l.sendHeader n).blackRow = 0 := rfl
@[simp] theorem Link.sendHeader_blackCol (n : Nat) (l : Link) : (l.sendHeader n).blackCol = 0 := rfl

/-- A controller's frame-start action: the tile's link becomes the one of the action with the coming frame's header sent,
its engine is inactive unless the link carries content, no other column changes, and TILE is raised where R148 says so. -/
theorem stepLink_spec {k : Nat} {s : State} (hl : k < s.tiles.length) :
    let r := (s.tile k).link.atFrameStart s.now s.prof.grace s.horizon
    OtherTilesKept k s (stepLink k s) ∧
    (stepLink k s).tile k = { s.tile k with
      link := r.1.sendHeader (s.now + 1)
      engine := if r.1.state.carries then (s.tile k).engine else (s.tile k).engine.deactivate } ∧
    (r.2.raisesTile = true → (stepLink k s).flag .tile = true) ∧
    (r.2.raisesTile = false → (stepLink k s).window = s.window) := by
  intro r
  cases h : r.2.raisesTile
  · have e : stepLink k s = s.setTile k { s.tile k with
        link := r.1.sendHeader (s.now + 1)
        engine := if r.1.state.carries then (s.tile k).engine else (s.tile k).engine.deactivate } := by
      simp only [stepLink]
      rw [if_neg (by rw [h]; decide)]
    rw [e]
    exact ⟨otherTilesKept_setTile _ _ _, State.tile_setTile_same _ hl, (fun x => nomatch x), fun _ => rfl⟩
  · have e : stepLink k s = raise .tile (s.setTile k { s.tile k with
        link := r.1.sendHeader (s.now + 1)
        engine := if r.1.state.carries then (s.tile k).engine else (s.tile k).engine.deactivate }) := by
      simp only [stepLink]
      rw [if_pos h]
    rw [e]
    exact ⟨(otherTilesKept_setTile _ _ _).trans (otherTilesKept_of_tiles rfl), State.tile_setTile_same _ hl,
      fun _ => flag_raise_same _ _, fun x => nomatch x⟩

theorem otherTilesKept_stepLinkUnlessDone (k : Nat) (s : State) : OtherTilesKept k s (stepLinkUnlessDone k s) := by
  unfold stepLinkUnlessDone
  split
  · exact otherTilesKept_refl _ _
  · split
    · exact otherTilesKept_updTile _ _ _
    · by_cases hl : k < s.tiles.length
      · exact (stepLink_spec hl).1
      · refine otherTilesKept_of_tiles ?_
        simp only [stepLink]
        split <;> simp [State.setTile, State.setTiles, raise_tiles, List.set_eq_of_length_le (Nat.le_of_not_lt hl)]

/-! ## Scan contexts -/

theorem otherTilesKept_setCommit (k : Nat) (s : State) (c : CommitUnit) : OtherTilesKept k s (s.setCommit c) :=
  otherTilesKept_of_tiles rfl

@[simp] theorem State.tile_setCommit (k : Nat) (s : State) (c : CommitUnit) : (s.setCommit c).tile k = s.tile k := rfl

/-- One switch of a tile's list taken: its scan context takes it as R102 to R106 say, and no other column changes. -/
theorem takeSwitch_spec {k : Nat} {s : State} (hl : k < s.tiles.length) (sw : Switch) :
    OtherTilesKept k s (takeSwitch k s sw) ∧
    ((takeSwitch k s sw).tile k).scan = scanTook (s.prof.size k) (s.tile k).scan sw ∧
    ((takeSwitch k s sw).tile k).stopAt = (s.tile k).stopAt ∧
    ((takeSwitch k s sw).tile k).link = (s.tile k).link ∧
    ((takeSwitch k s sw).tile k).engine = (s.tile k).engine ∧
    (takeSwitch k s sw).profile = s.profile ∧ (takeSwitch k s sw).ftg = s.ftg := by
  obtain ⟨frame, body⟩ := sw
  cases body with
  | trim street dusk => simp [takeSwitch, scanTook, Scan.takeTrim, hl, otherTilesKept_updTile]
  | level set => simp [takeSwitch, scanTook, Scan.takeLevel, hl, otherTilesKept_updTile]
  | scene plate x0 y0 fill tr cue =>
    simp only [takeSwitch, sceneTaken]
    refine ⟨(otherTilesKept_updTile _ _ _).trans ((otherTilesKept_setCommit _ _ _).trans (otherTilesKept_updTile _ _ _)), ?_⟩
    rw [State.tile_updTile_same _ (by simpa using hl)]
    simp only [State.tile_setCommit, State.tile_updTile_same _ hl, scanTook, Scan.takeScene, Scan.endFade]
    refine ⟨?_, trivial, trivial, trivial, rfl, rfl⟩
    cases hf : (s.tile k).scan.fade <;> cases tr with
      | cut => simp [hf]
      | fade n => cases n <;> simp [hf]

/-- The switches of a frame taken in list order. -/
theorem takeSwitches_spec {k : Nat} (due : List Switch) {s : State} (hl : k < s.tiles.length) :
    OtherTilesKept k s (due.foldl (takeSwitch k) s) ∧
    ((due.foldl (takeSwitch k) s).tile k).scan = due.foldl (scanTook (s.prof.size k)) (s.tile k).scan ∧
    ((due.foldl (takeSwitch k) s).tile k).stopAt = (s.tile k).stopAt ∧
    ((due.foldl (takeSwitch k) s).tile k).link = (s.tile k).link ∧
    ((due.foldl (takeSwitch k) s).tile k).engine = (s.tile k).engine ∧
    (due.foldl (takeSwitch k) s).profile = s.profile ∧ (due.foldl (takeSwitch k) s).ftg = s.ftg := by
  induction due generalizing s with
  | nil => exact ⟨otherTilesKept_refl _ _, rfl, rfl, rfl, rfl, rfl, rfl⟩
  | cons sw rest ih =>
    obtain ⟨o, a, b, c, d, p, f⟩ := takeSwitch_spec hl sw
    obtain ⟨o', a', b', c', d', p', f'⟩ := ih (s := takeSwitch k s sw) (by rw [o.1]; exact hl)
    have hp : (takeSwitch k s sw).prof = s.prof := by simp only [State.prof, p]
    simp only [List.foldl_cons]
    exact ⟨o.trans o', by rw [a', a, hp], b'.trans b, c'.trans c, d'.trans d, p'.trans p, f'.trans f⟩

/-- A tile's scan context brought up to date at a frame start: cleared or its fade advanced, the frame's switches taken,
then its stop switch; link and engine are untouched, and no other column changes (R97, R101 to R107, R116). -/
theorem scanTile_spec {k : Nat} {s : State} (hl : k < s.tiles.length) :
    let due := (s.tile k).switches.filter (fun sw => sw.frame == s.now)
    let taken := due.foldl (scanTook (s.prof.size k)) (scanBegun s.window.resetTaken (s.tile k).scan)
    OtherTilesKept k s (scanTile k s) ∧
    ((s.tile k).stopAt ≠ some s.now →
      ((scanTile k s).tile k).scan = taken ∧ ((scanTile k s).tile k).stopAt = (s.tile k).stopAt) ∧
    ((s.tile k).stopAt = some s.now →
      ((scanTile k s).tile k).scan = { taken with current := .noPlate, fade := none, cue := none } ∧
      ((scanTile k s).tile k).stopAt = none) ∧
    ((scanTile k s).tile k).link = (s.tile k).link ∧ ((scanTile k s).tile k).engine = (s.tile k).engine := by
  intro due taken
  let s' := s.updTile k (fun t =>
    { t with scan := if s.window.resetTaken then t.scan.clear else t.scan.advanceFade,
             switches := t.switches.filter (fun sw => sw.frame != s.now) })
  have hl' : k < s'.tiles.length := by simpa [s'] using hl
  obtain ⟨o, a, b, c, d, p, f⟩ := takeSwitches_spec due hl'
  have ht : s'.tile k = { s.tile k with
      scan := if s.window.resetTaken then (s.tile k).scan.clear else (s.tile k).scan.advanceFade
      switches := (s.tile k).switches.filter (fun sw => sw.frame != s.now) } := State.tile_updTile_same _ hl
  have hb : (if s.window.resetTaken then (s.tile k).scan.clear else (s.tile k).scan.advanceFade) =
      scanBegun s.window.resetTaken (s.tile k).scan := by
    simp only [scanBegun, Scan.clear, Scan.advanceFade, Scan.endFade]
    split
    · rfl
    · cases (s.tile k).scan.fade <;> simp
  have ha : ((due.foldl (takeSwitch k) s').tile k).scan = taken := by
    rw [a, ht]; simp only [hb]; rfl
  have hn : (due.foldl (takeSwitch k) s').now = s.now := by simp only [State.now, f]; rfl
  have hq : ((due.foldl (takeSwitch k) s').tile k).stopAt = (s.tile k).stopAt := by rw [b, ht]
  have hL : ((due.foldl (takeSwitch k) s').tile k).link = (s.tile k).link := by rw [c, ht]
  have hE : ((due.foldl (takeSwitch k) s').tile k).engine = (s.tile k).engine := by rw [d, ht]
  have e : scanTile k s = takeStop k (due.foldl (takeSwitch k) s') := rfl
  have oo : OtherTilesKept k s (due.foldl (takeSwitch k) s') := (otherTilesKept_updTile _ _ _).trans o
  have len : k < (due.foldl (takeSwitch k) s').tiles.length := by rw [o.1]; exact hl'
  rw [e]
  unfold takeStop
  rw [hq, hn]
  split
  · next h =>
    refine ⟨oo.trans ((otherTilesKept_updTile _ _ _).trans (otherTilesKept_setCommit _ _ _)), fun x => absurd h x, ?_⟩
    simp only [State.tile_setCommit, State.tile_updTile_same _ len, Scan.clear, ha]
    exact ⟨fun _ => ⟨trivial, trivial⟩, hL, hE⟩
  · next h => exact ⟨oo, fun _ => ⟨ha, hq⟩, fun x => absurd x h, hL, hE⟩

/-! ## Places of the write queue -/

theorem State.placesForHold_pos (s : State) : 0 < s.placesForHold ↔ s.departingCount = 0 ∧ 0 < s.freePlaces := by
  unfold State.placesForHold
  split <;> simp_all

theorem State.placesForHandoff_pos (s : State) :
    0 < s.placesForHandoff ↔ s.report.holdFaults = [] ∧ 0 < s.placesForHold := by
  unfold State.placesForHandoff
  split <;> simp_all

/-- No entry is departing exactly when the count of departing entries is 0. -/
theorem State.departingCount_eq_zero (s : State) :
    s.departingCount = 0 ↔ ∀ e ∈ s.scheduler.queue, e.departing = none := by
  simp [State.departingCount, List.countP_eq_zero]

/-! ## A failed byte write -/

/-- A failed write of a profile or an invalidation leaves no good marker (R169, R173). -/
theorem failedByte_marker {kind : JobKind} (h : kind ≠ .trim) (free : Byte) : failedByte kind 0 free ≠ imageMarker := by
  unfold failedByte
  split
  · decide
  · next h' => exact fun e => h' ⟨h, rfl, e⟩

/-! ## The old contents of fades, and the RELEASED writes that wait for them (R24, R93) -/

section
variable (c : Scan)

@[simp] theorem Scan.fadingFrom_endFade : c.endFade.fadingFrom = none := by
  unfold Scan.endFade Scan.fadingFrom
  cases h : c.fade <;> simp [h]

@[simp] theorem Scan.fadingFrom_clear : c.clear.fadingFrom = none := rfl

@[simp] theorem Scan.fadingFrom_takeTrim (street dusk : Option Nat) :
    (c.takeTrim street dusk).fadingFrom = c.fadingFrom := rfl

@[simp] theorem Scan.fadingFrom_takeLevel (set : LevelSet) : (c.takeLevel set).fadingFrom = c.fadingFrom := rfl

@[simp] theorem Scan.cue_endFade : c.endFade.cue = c.cue := by
  unfold Scan.endFade
  cases c.fade <;> rfl

/-- A fade holds the content of the cue shown before its switch; a cut holds none. -/
@[simp] theorem Scan.fadingFrom_takeScene (content : Content) (tr : Transition) (cue : PassId) :
    (c.takeScene content tr cue).fadingFrom =
      match tr with
      | .cut | .fade 0 => none
      | .fade (_ + 1) => c.cue.map (·.record) := by
  match tr with
  | .cut => exact c.fadingFrom_endFade
  | .fade 0 => exact c.fadingFrom_endFade
  | .fade (n + 1) => simp [Scan.takeScene, Scan.fadingFrom]

/-- The advance of a fade keeps its old content until its last step, and then lets go of it. -/
theorem Scan.fadingFrom_advanceFade :
    c.advanceFade.fadingFrom = none ∨ c.advanceFade.fadingFrom = c.fadingFrom := by
  unfold Scan.advanceFade
  split
  · next f hf =>
    split
    · exact .inr (by simp [Scan.fadingFrom, hf])
    · exact .inl c.fadingFrom_endFade
  · exact .inr rfl

end

theorem State.fadingFrom_of_tiles {s t : State} (h : t.tiles = s.tiles) : t.fadingFrom = s.fadingFrom := by
  unfold State.fadingFrom
  rw [h]

/-- The model's fading records are those of `FadesFrom`. -/
theorem State.mem_fadingFrom (record : Nat) (s : State) : record ∈ s.fadingFrom ↔ FadesFrom record s := by
  unfold State.fadingFrom FadesFrom Scan.fadingFrom
  rw [List.mem_filterMap]
  refine exists_congr fun x => and_congr_right fun _ => ?_
  cases x.scan.fade with
  | none => simp
  | some f =>
    constructor
    · intro h
      obtain ⟨id, hid, rfl⟩ := Option.map_eq_some_iff.mp h
      exact ⟨f, id.pass, rfl, hid⟩
    · rintro ⟨_, pass, ⟨rfl⟩, h⟩
      exact Option.map_eq_some_iff.mpr ⟨_, h, rfl⟩

/-- A RELEASED write is presented only when its record is none of those that a fade still holds. -/
theorem presented_released {fading : List Nat} {w : OutcomeWrite} {g : Bool} (released : w.kind = .released)
    {q : List QueueItem} {i j : Nat} {f : Bool} (h : presented fading i f q = some (i + j))
    (at_j : q[j]? = some (.outcome w g)) : w.record ∉ fading := by
  induction q generalizing i j f with
  | nil => simp at at_j
  | cons x rest ih =>
    have later {f' : Bool} (h' : presented fading (i + 1) f' rest = some (i + j)) : w.record ∉ fading := by
      have hle : ∀ {l : List QueueItem} {a b : Nat} {d : Bool}, presented fading a d l = some b → a ≤ b := by
        intro l
        induction l with
        | nil => simp [presented]
        | cons y l ihl =>
          intro a b d hp
          cases y <;> simp only [presented] at hp <;> (repeat' split at hp) <;>
            first
              | (have := ihl hp; omega)
              | (simp at hp; omega)
              | simp at hp
      obtain ⟨k, rfl⟩ : ∃ k, j = k + 1 := ⟨j - 1, by have := hle h'; omega⟩
      exact ih (j := k) (by rw [h']; congr 1; omega) (by simpa using at_j)
    cases x with
    | outcome v granted =>
      simp only [presented] at h
      split at h
      · exact later h
      · split at h
        · cases h
        · next hv =>
          have hj : j = 0 := by simpa using h
          subst hj
          have : v = w := by simpa using (by simpa using at_j : v = w ∧ granted = g).1
          subst this
          exact fun hm => hv ⟨released, hm⟩
    | fault v granted =>
      simp only [presented] at h
      (repeat' split at h)
      · exact later h
      · cases h
      · have hj : j = 0 := by simpa using h
        subst hj
        simp at at_j
    | refresh v n a b =>
      simp only [presented] at h
      (repeat' split at h)
      · exact later h
      · have hj : j = 0 := by simpa using h
        subst hj
        simp at at_j
      · cases h

/-- GRANT_DECISION serves the Report Writer's place with no RELEASED write whose cue a fade still holds. -/
theorem reportRequest_released {s : State} {i : Nat} {w : OutcomeWrite} {g : Bool} (h : s.reportRequest = some i)
    (at_i : s.report.queue[i]? = some (.outcome w g)) (released : w.kind = .released) : ¬ FadesFrom w.record s := by
  rw [← State.mem_fadingFrom]
  exact presented_released released (i := 0) (j := i) (by simpa [State.reportRequest] using h) at_i

end Sys2Proof.Machine
end

