-- ==== Sys2Proof/Laws/Links.lean ====
section
/-! SUPPORT. What a Tile Link Controller's frame-start action does when it is taken ahead (log entry 9), said once for the
five commands that take it. -/

set_option Elab.async false

namespace Sys2Proof.Machine

/-- A frame-start action that makes the given transition: only the tile's own column changes, its link becomes the one of
the transition with the coming frame's header sent, its engine is inactive unless the link carries content, and TILE is raised where
R148 says so. -/
theorem linkAhead_spec (event : LinkEvent) {k : Nat} {s : State} (hr : s.ftg.running = true)
    (hk : k < s.prof.tiles) (hl : k < s.tiles.length) (hs : (s.tile k).link.stepped = false) {r : Link}
    (e : (s.tile k).link.atFrameStart s.now s.prof.grace s.horizon = (r, event)) :
    OnlyIn [.tiles, .window] s (linkAhead event k s) ∧ OtherTilesKept k s (linkAhead event k s) ∧
    (event.raisesTile = false → OnlyIn [.tiles] s (linkAhead event k s)) ∧
    (event.raisesTile = true → (linkAhead event k s).flag .tile = true) ∧
    (linkAhead event k s).tile k = { s.tile k with
      link := { r.sendHeader (s.now + 1) with stepped := true },
      engine := if r.state.carries then (s.tile k).engine else (s.tile k).engine.deactivate } := by
  refine ⟨onlyIn_linkAhead _ _ _, ?_⟩
  simp only [linkAhead, hr, hk, hl, hs, e, and_self, if_true, stepLink]
  cases h : event.raisesTile
  · simp only [Bool.false_eq_true, if_false, false_implies, true_implies]
    refine ⟨(otherTilesKept_setTile _ _ _).trans (otherTilesKept_updTile _ _ _),
      (onlyIn_setTile _ _ _).trans (onlyIn_updTile _ _ _), trivial, ?_⟩
    simp [hl]
  · simp only [if_true, Bool.true_eq_false, false_implies, true_implies]
    refine ⟨(otherTilesKept_setTile _ _ _).trans ((otherTilesKept_of_tiles rfl).trans (otherTilesKept_updTile _ _ _)),
      trivial, ?_, ?_⟩
    · simp
    · simp [hl]

end Sys2Proof.Machine
end

