-- ==== Sys2Proof/Laws/Memory.lean ====
section
/-! SUPPORT. The basic laws of show memory: every operation on it keeps its canonical form, a read after a write gives
the byte written, and a write leaves every other address alone. -/

namespace Sys2Proof.Machine

/-! ## One byte -/

/-- Every listed address is above `a`. -/
def Memory.above (a : Nat) (m : List Host.Cell) : Prop := ∀ c ∈ m, a < c.1

theorem Memory.wf_cons_iff (a : Nat) (v : Byte) (m : List Host.Cell) :
    Memory.wf ((a, v) :: m) = true ↔ v ≠ Memory.unlisted a ∧ Memory.above a m ∧ Memory.wf m = true := by
  induction m generalizing a v with
  | nil => simp [Memory.wf, Memory.above]
  | cons c rest ih =>
    obtain ⟨b, w⟩ := c
    have hstep : Memory.wf ((a, v) :: (b, w) :: rest) = true ↔
        v ≠ Memory.unlisted a ∧ a < b ∧ Memory.wf ((b, w) :: rest) = true := by
      simp [Memory.wf, and_assoc]
    rw [hstep]
    constructor
    · rintro ⟨hv, hab, hw⟩
      refine ⟨hv, ?_, hw⟩
      intro c hc
      rcases List.mem_cons.mp hc with rfl | hc
      · exact hab
      · exact lt_trans hab (((ih b w).mp hw).2.1 c hc)
    · rintro ⟨hv, ha, hw⟩
      exact ⟨hv, ha (b, w) (by simp), hw⟩

theorem Memory.read_of_above {a : Nat} {m : List Host.Cell} (h : Memory.above a m) :
    Memory.read m a = Memory.unlisted a := by
  induction m with
  | nil => rfl
  | cons c rest ih =>
    obtain ⟨b, w⟩ := c
    have hb : a < b := h (b, w) (by simp)
    have hne : b ≠ a := by omega
    simp only [Memory.read, hne, if_false]
    exact ih (fun c hc => h c (by simp [hc]))

/-- A write at an address above `a` lists only addresses above `a`. -/
theorem Memory.above_write {a b : Nat} {v : Byte} {m : List Host.Cell} (hab : a < b) (h : Memory.above a m) :
    Memory.above a (Memory.write m b v) := by
  induction m with
  | nil =>
    unfold Memory.write
    split <;> simp [Memory.above, hab]
  | cons c rest ih =>
    obtain ⟨x, w⟩ := c
    have hx : a < x := h (x, w) (by simp)
    have hr : Memory.above a rest := fun c hc => h c (by simp [hc])
    have hc : Memory.above a ((x, w) :: rest) := h
    have add : ∀ y u l, a < y → Memory.above a l → Memory.above a ((y, u) :: l) := by
      intro y u l hy hl c hc
      rcases List.mem_cons.mp hc with rfl | hc
      · exact hy
      · exact hl c hc
    unfold Memory.write
    split
    · split
      · exact hc
      · exact add _ _ _ hab hc
    · split
      · split
        · exact hr
        · exact add _ _ _ hab hr
      · exact add _ _ _ hx (ih hr)

/-- A byte write keeps the canonical form. -/
theorem Memory.wf_write {m : List Host.Cell} (a : Nat) (v : Byte) (h : Memory.wf m = true) :
    Memory.wf (Memory.write m a v) = true := by
  induction m with
  | nil =>
    unfold Memory.write
    split
    · rfl
    · rename_i hv
      exact (Memory.wf_cons_iff a v []).mpr ⟨hv, by simp [Memory.above], rfl⟩
  | cons c rest ih =>
    obtain ⟨b, w⟩ := c
    obtain ⟨hw, hb, hr⟩ := (Memory.wf_cons_iff b w rest).mp h
    unfold Memory.write
    split
    · rename_i hab
      split
      · exact h
      · rename_i hv
        refine (Memory.wf_cons_iff a v _).mpr ⟨hv, ?_, h⟩
        intro c hc
        rcases List.mem_cons.mp hc with rfl | hc
        · exact hab
        · exact lt_trans hab (hb c hc)
    · split
      · rename_i hab
        subst hab
        split
        · exact hr
        · rename_i hv
          exact (Memory.wf_cons_iff a v rest).mpr ⟨hv, hb, hr⟩
      · rename_i h1 h2
        exact (Memory.wf_cons_iff b w _).mpr ⟨hw, Memory.above_write (by omega) hb, ih hr⟩

/-- A read of the address written gives the byte written, and a read of any other address gives what it gave. -/
theorem Memory.read_write {m : List Host.Cell} (a x : Nat) (v : Byte) (h : Memory.wf m = true) :
    Memory.read (Memory.write m a v) x = if x = a then v else Memory.read m x := by
  induction m with
  | nil =>
    unfold Memory.write
    by_cases hv : v = Memory.unlisted a
    · by_cases hx : x = a
      · subst hx; simp [Memory.read, hv]
      · simp [Memory.read, hv, hx]
    · by_cases hx : x = a
      · subst hx; simp [Memory.read, hv]
      · simp [Memory.read, hv, hx, Ne.symm hx]
  | cons c rest ih =>
    obtain ⟨b, w⟩ := c
    obtain ⟨hw, hb, hr⟩ := (Memory.wf_cons_iff b w rest).mp h
    have habove : ∀ y, y < b → Memory.above y ((b, w) :: rest) := by
      intro y hy c hc
      rcases List.mem_cons.mp hc with rfl | hc
      · exact hy
      · exact lt_trans hy (hb c hc)
    unfold Memory.write
    split
    · rename_i hab
      split
      · rename_i hv
        by_cases hx : x = a
        · subst hx
          rw [Memory.read_of_above (habove x hab)]
          simp [hv]
        · simp [hx]
      · by_cases hx : x = a
        · subst hx; simp [Memory.read]
        · simp [Memory.read, hx, Ne.symm hx]
    · split
      · rename_i h1 hab
        subst hab
        split
        · rename_i hv
          by_cases hx : x = a
          · subst hx
            rw [Memory.read_of_above hb]
            simp [hv]
          · simp [Memory.read, hx, Ne.symm hx]
        · by_cases hx : x = a
          · subst hx; simp [Memory.read]
          · simp [Memory.read, hx, Ne.symm hx]
      · rename_i h1 h2
        by_cases hxb : b = x
        · subst hxb
          have : ¬ (b = a) := fun e => h2 e.symm
          simp [Memory.read, this]
        · simp only [Memory.read, hxb, if_false]
          exact ih hr

/-! ## Runs of bytes -/

theorem Memory.wf_writeBytes {m : List Host.Cell} (a : Nat) (bs : List Byte) (h : Memory.wf m = true) :
    Memory.wf (Memory.writeBytes m a bs) = true := by
  induction bs generalizing m a with
  | nil => exact h
  | cons b rest ih => exact ih (a + 1) (Memory.wf_write a b h)

/-- A run written from `a` reads back byte by byte, and every address outside it reads as before. -/
theorem Memory.read_writeBytes {m : List Host.Cell} (a x : Nat) (bs : List Byte) (h : Memory.wf m = true) :
    Memory.read (Memory.writeBytes m a bs) x =
      if a ≤ x ∧ x < a + bs.length then bs.getD (x - a) 0 else Memory.read m x := by
  induction bs generalizing m a with
  | nil => simp [Memory.writeBytes]
  | cons b rest ih =>
    rw [Memory.writeBytes, ih (a + 1) (Memory.wf_write a b h), Memory.read_write a x b h]
    by_cases hx : x = a
    · subst hx; simp
    · by_cases hin : a + 1 ≤ x ∧ x < a + 1 + rest.length
      · have h1 : a ≤ x ∧ x < a + (b :: rest).length := by simp; omega
        have h2 : x - a = (x - (a + 1)) + 1 := by omega
        rw [if_pos hin, if_pos h1, h2]
        simp
      · have h1 : ¬ (a ≤ x ∧ x < a + (b :: rest).length) := by simp; omega
        rw [if_neg hin, if_neg h1, if_neg hx]

theorem Memory.wf_writeRuns {m : List Host.Cell} (base : Nat) (runs : List (Nat × List Byte))
    (h : Memory.wf m = true) : Memory.wf (writeRuns m base runs) = true := by
  unfold writeRuns
  induction runs generalizing m with
  | nil => exact h
  | cons r rest ih => exact ih (Memory.wf_writeBytes _ _ h)

/-- Runs written from a base leave every address outside all of them as it was. -/
theorem Memory.read_writeRuns_outside {m : List Host.Cell} (base x : Nat) (runs : List (Nat × List Byte))
    (h : Memory.wf m = true) (hx : ∀ r ∈ runs, x < base + r.1 ∨ base + r.1 + r.2.length ≤ x) :
    Memory.read (writeRuns m base runs) x = Memory.read m x := by
  unfold writeRuns
  induction runs generalizing m with
  | nil => rfl
  | cons r rest ih =>
    rw [List.foldl_cons, ih (Memory.wf_writeBytes _ _ h) (fun r' hr => hx r' (by simp [hr])),
      Memory.read_writeBytes _ _ _ h, if_neg]
    have := hx r (by simp)
    omega

/-- An outcome write keeps the canonical form. -/
theorem OutcomeWrite.wf_perform {m : List Host.Cell} (w : OutcomeWrite) (h : Memory.wf m = true) :
    Memory.wf (w.perform m) = true := Memory.wf_writeRuns _ _ h

end Sys2Proof.Machine
end

