-- ==== Sys2Proof/Tests/Slice0.lean ====
section
/-! SUPPORT. The model's own tests: ill-formed commands refused, worked cases of the manual, one or two steps of every
command, and a witness for the hypotheses of every statement. -/

set_option Elab.async false

namespace Sys2Proof.Tests

open Sys2Proof Sys2Proof.Machine

/-! ## States the tests start from -/

/-- The state a command leads to; the state itself where it stops. -/
def after (c : Instr) (s : State) : State :=
  match exec c s with
  | .next t => t
  | .fault _ => s
  | .refused _ => s

/-- A profile block: 2 tiles of 64 × 64 at rate 60, Lmax 2, grace 3, late window 300 s, budget 8 kilowords, plate table at
0x10000, status page at 0x20000, AUTO, K = 3, thresholds 2000 and 1200, dusk scale 160, widths 40 ms and 0, alignment on,
idle fill (1, 2, 3). -/
def sampleBlock : List Byte :=
  [2, 60, 2, 3, 44, 1, 8, 0, 0, 0, 1, 0, 0, 0, 2, 0, 0, 3, 0xD0, 7, 0xB0, 4, 160, 0, 40, 0, 1, 1, 2, 3, 0, 0] ++
    (List.replicate 16 [(64 : Byte), 0, 64, 0]).flatten

def sampleProfile : Profile :=
  { tiles := 2, rate := 60, lmax := 2, grace := 3, lateWindow := 300, budget := 8, plateTable := 0x10000
    statusPage := 0x20000, ambientMode := .auto, confirm := 3, upThreshold := 2000, downThreshold := 1200
    duskScale := 160, triggerWidth := 40, pulseWidth := 0, pulseAlign := true, idleFill := ⟨1, 2, 3⟩
    sizes := List.replicate 16 (64, 64), block := sampleBlock }

/-- A profile record that holds the block. -/
def sampleRecord : List Byte := [0xD1, 0x5A, 0, 0, 0, 0, 0, 0] ++ sampleBlock

/-- The settings image of the block with every trim code 16. -/
def sampleImage : List Byte :=
  let body := [(0xA5 : Byte), 1] ++ sampleBlock ++ List.replicate 32 16 ++ List.replicate 381 0
  body ++ [byteSum body]

/-- STANDBY in frame 1000. -/
def standby : State :=
  { State.reset with
    profile := some sampleProfile
    ftg := { Ftg.reset with running := true, frame := 1000, clock := ⟨12, 0, 0, 0⟩ }
    ambient := { AmbientUnit.reset with
      polling := true, history := [2500, 2500, 2500, 2500], average := some 2500, status := .good }
    store := { eeprom := [], state := .idle, image := [], valid := false, job := none, result := none }
    window := { State.reset.window with wall := .standby } }

def showing : State := { standby with
  window := { standby.window with wall := .showing }, scheduler := { Scheduler.reset with anchor := 1000 } }

/-- A scene of tile 0 showing plate 3, dwell 10, slack 2. -/
def sceneCue (record : Nat) : Cue :=
  { record := record, body := .scene [⟨0, 3, 0, 0, none⟩], mode := .after, keep := false, extend := true
    persist := false, dwell := 10, transition := .cut, slack := 2, waitLimit := 0, atTime := ⟨0, 0, 0, 0⟩ }

def entryOf (c : Cue) : Entry :=
  { cue := c, slackUsed := 0, target := none, late := false, eventFrame := none, clockAhead := [], clockFrame := none
    departing := none, attemptable := true }

/-- SHOWING with entries in the look-ahead queue. -/
def queued (l : List Entry) : State := { showing with scheduler := { showing.scheduler with queue := l } }

/-- A valid READY plate. -/
def plate : PlateEntry := { state := .ready, base := 0x400000, width := 100, height := 80, stride := 50 }

/-- A commit attempt of the scene with its one plate-table entry read. -/
def attempting (e : Entry) (p : PlateEntry) : State :=
  { queued [e] with commit := { CommitUnit.reset with attempt := some ⟨0x1000, [], [(3, p)]⟩ } }

/-- A showing-table entry of record 0x2000, committed for frame 990 with dwell end 1250. -/
def shownEntry : ShowEntry :=
  { id := ⟨0x2000, 7⟩, visible := 990, dwellEnd := some 1250, held := [0], shown := true, degraded := false
    clipped := false, overBudget := false, keep := false }

/-- A MARK cue's due-list entry for frame 1001. -/
def dueMark : DueEntry :=
  { record := 64, pass := 9, body := .mark 77, keep := false, visible := 1001, slip := 0, late := false, persist := false }

/-- SHOWING with a last committed scene that a trigger may lengthen. -/
def lengthenable : State := { showing with
  scheduler := { showing.scheduler with lastScene := some ⟨⟨0x2000, 7⟩, 990, 250, some 1250, true⟩, lastFrame := some 990 }
  commit := { CommitUnit.reset with showing := [shownEntry], commitCount := 7 } }

/-- A state with tile column 0 changed. -/
def withTile (f : Tile → Tile) (s : State) : State := s.updTile 0 f

def withLink (f : Link → Link) (s : State) : State := withTile (fun t => { t with link := f t.link }) s

def withEngine (f : Engine → Engine) (s : State) : State := withTile (fun t => { t with engine := f t.engine }) s

/-- A lane of the plate on a tile, 32 words of each row to fetch. -/
def plateLane : Lane := .prepared (contentOf (64, 64) plate.snapshot 0 0 none)

/-- Tile 0 in step with an active engine at the start of a frame. -/
def sending : State :=
  withEngine (fun e => { e with main := plateLane, active := true }) (withLink (fun l => { l with state := .inStep }) showing)

/-- SHOWING with the Chain Follower as given. -/
def following (f : Follower) : State := { showing with follower := f }

def holding (p : HoldPosition) (r : HoldReason) (address : Nat) : State :=
  following { state := .hold, follow := address, position := p, reason := some r, fetch := none }

/-- SHOWING with a write queue. -/
def reporting (q : List QueueItem) : State := { showing with report := { Report.reset with queue := q } }

/-- The bytes of a MARK record of length 9 with a link of one byte and a tag of one byte. -/
def markRecord (link tag : Byte) : List Byte :=
  [0xC3, 0x5A, 4, 9, 0, 0, 0, 0, 0, 0, 0, 0, 0, 0, 0, 0, 0, 0, 0, 0, 0, 0, 0, 0, tag, 0, 0, 0, 0, 0, 0, 0, link] ++
    List.replicate 39 0

/-- A SCENE record of 17 words: tiles 0..7 showing plate 0. -/
def longRecord : List Byte :=
  [0xC3, 0x5A, 1, 17, 8] ++ List.replicate 67 (0 : Byte) ++
    ((List.range 8).map (fun i => BitVec.ofNat 8 i :: List.replicate 7 (0 : Byte))).flatten

def fetched (r : List Byte) : State :=
  following { state := .fetching, follow := 0x1000, position := .record, reason := none
              fetch := some (.record 0x1000 [] (some r)) }

/-- AWAIT_PROFILE with ARG and an ADOPT_PROFILE at the given phase. -/
def adopting (persist : Bool) (phase : AdoptPhase) : State :=
  { State.reset with
    store := { standby.store with image := sampleImage.map some, valid := true }
    window := { State.reset.window with
      wall := .awaitProfile, main := some ⟨1, .busy⟩, adoption := some ⟨persist, 0x3000, phase⟩ } }

/-! ## Ill-formed commands -/

theorem test_wf_loadingEnd : (Instr.loadingEnd [512]).wf = false := by decide
theorem test_wf_cmdInvalidCode : (Instr.cmdInvalidCode 7).wf = false := by decide
theorem test_wf_registerWrite : (Instr.registerWrite (.empty 0x18) 0).wf = false := by decide
theorem test_wf_windowRead_empty : (Instr.hostWindowAccess (.read 0 0)).wf = false := by decide
theorem test_wf_windowRead_long : (Instr.hostWindowAccess (.read 0 129)).wf = false := by decide
theorem test_wf_windowRead_outside : (Instr.hostWindowAccess (.read 0x1FFFFFFF 2)).wf = false := by decide
theorem test_wf_windowWrite_empty : (Instr.hostWindowAccess (.write 0 [])).wf = false := by decide
theorem test_wf_windowWrite_outside : (Instr.hostWindowAccess (.write 0x20000000 [1])).wf = false := by decide
theorem test_wf_waitLimitSkip_unaligned : (Instr.waitLimitSkip 32).wf = false := by decide
theorem test_wf_waitLimitSkip_outside : (Instr.waitLimitSkip 0x20000000).wf = false := by decide
theorem test_wf_tile : (Instr.echo 16 0).wf = false ∧ (Instr.graceExpired 16).wf = false ∧
    (Instr.joinComplete 16).wf = false ∧ (Instr.lostTimeout 16).wf = false ∧ (Instr.absentIdentify 16).wf = false ∧
    (Instr.trainingTimeout 16).wf = false ∧ (Instr.linkTakesPixel 16).wf = false ∧
    (Instr.burstArrival 16 ⟨0, 1⟩).wf = false ∧ (Instr.descriptor 16 ⟨64, 64, 0, 0⟩).wf = false := by decide
theorem test_wf_burstArrival : (Instr.burstArrival 0 ⟨0, 0⟩).wf = false ∧ (Instr.burstArrival 0 ⟨0, 17⟩).wf = false ∧
    (Instr.burstArrival 15 ⟨0, 16⟩).wf = true := by decide
theorem test_wf_descriptor_width : (Instr.descriptor 0 ⟨0, 64, 0, 0⟩).wf = false ∧
    (Instr.descriptor 0 ⟨4096, 64, 0, 0⟩).wf = false := by decide
theorem test_wf_descriptor_height : (Instr.descriptor 0 ⟨64, 0, 0, 0⟩).wf = false ∧
    (Instr.descriptor 0 ⟨64, 4096, 0, 0⟩).wf = false := by decide
theorem test_wf_descriptor_latency : (Instr.descriptor 0 ⟨64, 64, 16, 0⟩).wf = false := by decide
theorem test_wf_accepts : (Instr.hostWindowAccess (.read 0x1FFFFFFF 1)).wf = true ∧
    (Instr.descriptor 15 ⟨4095, 1, 15, 0⟩).wf = true ∧ (Instr.cmdInvalidCode 8).wf = true := by decide

/-! ## Worked cases of the manual -/

/-- Section 1.2.1. -/
theorem test_clock_day_boundary : (Clock.mk 23 59 59 59).increment 60 = ⟨0, 0, 0, 0⟩ := by decide
theorem test_clock_held_value : (Clock.mk 30 61 10 49).increment 50 = ⟨30, 61, 11, 0⟩ ∧
    (Clock.mk 30 61 59 49).increment 50 = ⟨0, 0, 0, 0⟩ := by decide

/-- Section 1.6.1. -/
theorem test_clock_align : ((Clock.mk 14 29 59 30).increment 50).align 50 = ⟨14, 30, 0, 0⟩ ∧
    ((Clock.mk 9 15 7 11).increment 60).align 60 = ⟨9, 15, 7, 0⟩ ∧
    ((Clock.mk 9 15 7 59).increment 60).align 60 = ⟨9, 15, 8, 0⟩ := by decide

/-- Section 2.4.1, tile 1. -/
theorem test_geometry_odd_origin :
    let c := contentOf (1920, 1080) ⟨8388608, 3840, 1080, 1920⟩ 1921 0 none
    c.cIn = 1919 ∧ c.rIn = 1080 ∧ c.words = 960 ∧ c.wordsPerFrame = 1036800 ∧ c.rowStart 1079 = 10461248 ∧
      c.clipped (1920, 1080) = true := by decide

/-- Section 2.4.2, origin (41, 10). -/
theorem test_geometry_both_discards :
    let c := contentOf (64, 64) ⟨0, 101, 50, 51⟩ 41 10 none
    c.cIn = 60 ∧ c.rIn = 40 ∧ c.words = 31 ∧ c.wordsPerFrame = 1240 := by decide

/-- Section 4.5.1: fixed at fetch in frame 9,000, the clock at 23:59:50:00. -/
theorem test_at_target : atTarget sampleProfile 9000 ⟨23, 59, 50, 0⟩ ⟨0, 0, 10, 0⟩ = (10200, false) := by decide

/-- Section 4.7.1: the trigger in frame 1,100 lengthens the scene to 1,351. -/
theorem test_trigger_lengthens :
    (triggerEvent { lengthenable with ftg := { lengthenable.ftg with frame := 1100 } }).scheduler.lastScene =
      some ⟨⟨0x2000, 7⟩, 990, 250, some 1351, true⟩ := by decide

/-- Section 6.6.1, steps 1, 3 and 8. -/
theorem test_fade : mix 200 40 8 1 = 180 ∧ mix 200 40 8 3 = 140 ∧ mix 200 40 8 8 = 40 := by decide
theorem test_levels : streetOut (gain 20) 140 = 149 ∧ duskOut (gain 20) 160 140 = 93 := by decide

/-- Section 6.6.2. -/
theorem test_saturation : streetOut (gain 31) 250 = 255 ∧ streetOut (gain 31) 206 = 254 ∧
    duskOut (gain 31) 160 250 = 193 ∧ duskOut (gain 16) 64 16 = 4 := by decide

/-- Section 12.6: the origin value 0x00A781 and the first byte 0x81. -/
theorem test_assignment : assignmentAt [0x81, 3, 0x81, 0xA7, 0x00, 9, 8, 7] 0 = ⟨1, 3, 0x781, 10, some ⟨9, 8, 7⟩⟩ := by
  decide

/-- Section 10.6.1: the image copy holds 16, 16 for tile 2, and 16, 14 for tile 5; its check byte is 0x3C. -/
theorem test_trim_job :
    let image := (List.replicate 512 (some (0 : Byte))).set 102 (some 16) |>.set 103 (some 16) |>.set 108 (some 16)
      |>.set 109 (some 14) |>.set 0 (some 0xA5) |>.set 10 (some 0x59) |>.set 511 (some 0x3C)
    contentWrites image (trimContent image [⟨2, some 18, some 16⟩, ⟨5, none, some 12⟩]) =
      [(0, 0), (102, 18), (109, 12), (511, 0x3C), (0, 0xA5)] := by decide +kernel

/-- Section 12.5: a CMD write of code 1 with the persist option, and bits 9..31 ignored. -/
theorem test_cmd_write : decodeCmdWrite 0x101 = .adoptProfile true ∧ decodeCmdWrite 0xFFFFFE05 = .stop ∧
    decodeCmdWrite 0 = .cmdInvalidCode 0 ∧ decodeCmdWrite 8 = .cmdInvalidCode 8 := by decide

/-- Section 8.4.1: frames 2,002 and 2,005 of tile 1, and the descriptor taken during 2,006. -/
theorem test_link_sequence :
    let lost := ({ Link.reset with state := .inStep, startState := .inStep, missRun := 2, missCount := 7 }).atFrameStart 2002 3 5
    let back := ({ Link.reset with state := .lost, startState := .lost, timer := 2, echoes := [213] }).atFrameStart 2005 3 5
    let join := ({ Link.reset with state := .joining, startState := .training }).atFrameStart 2006 3 5
    let count := ({ Link.reset with state := .joining, startState := .joining, echoes := [215] }).atFrameStart 2007 3 5
    lost.2 = .graceExpired ∧ lost.1.state = .lost ∧ lost.1.missRun = 0 ∧ lost.1.missCount = 8 ∧
      back.2 = .rejoin ∧ back.1.state = .training ∧ back.1.timer = 0 ∧ back.1.identifyDue = true ∧
      join.1.joinCount = 0 ∧ join.1.missCount = 0 ∧ count.1.joinCount = 1 := by decide

/-- Section 9.5.1: polls 4 and 7. -/
theorem test_ambient_sequence :
    let at4 : State := { showing with ambient := { showing.ambient with history := [2500, 1000, 900, 800] } }
    let at7 : State := { showing with ambient := { showing.ambient with history := [900, 800, 850, 1400], confirm := 2 } }
    (takeReading 850 at4).ambient.average = some 887 ∧ (takeReading 850 at4).ambient.confirm = 1 ∧
      (takeReading 1300 at7).ambient.average = some 1087 ∧ (takeReading 1300 at7).ambient.level = .dusk ∧
      (takeReading 1300 at7).flag .ambient = true := by decide

/-- Section 5.3 of the introduction: a multi-byte field is little-endian. -/
theorem test_little_endian : leAt [0, 0x34, 0x12] 1 2 = 0x1234 ∧ leBytes 2 0x1234 = [0x34, 0x12] := by decide

/-- The sample profile is what its block says, and it is valid (section 12.3, R167). -/
theorem test_profile : validProfileOf sampleBlock = some sampleProfile := by decide +kernel
theorem test_image : imageContent (readImage sampleImage []) = some sampleProfile := by decide +kernel

/-! ## Show memory -/

theorem test_memory_canonical : Memory.write (Memory.write (Memory.write [] 9 2) 5 1) 9 0 = [(5, 1)] := by decide

/-! ## One step of every command -/

theorem test_deviceReset :
    let s := after (.deviceReset .erased) { showing with
      store := { showing.store with eeprom := [1, 2, 3], job := some ⟨.trim, [(1, 9)]⟩ }, mem := [(4, 4)] }
    s.store.eeprom = [1, 0xFF, 3] ∧ s.window.wall = .loading ∧ s.profile = none ∧ s.mem = [(4, 4)] := by decide
theorem test_loadingEnd_valid :
    let s := after (.loadingEnd []) { State.reset with store := .loading sampleImage }
    s.window.wall = .standby ∧ s.profile = some sampleProfile ∧ (s.tile 1).link.state = .training ∧
      (s.tile 1).scan.street = 16 ∧ (s.tile 2).link.state = .absent := by decide +kernel
theorem test_loadingEnd_unread :
    (after (.loadingEnd [400]) { State.reset with store := .loading sampleImage }).window.wall = .awaitProfile := by
  decide +kernel
theorem test_adoptProfile :
    (after (.adoptProfile false) { State.reset with
      window := { State.reset.window with wall := .awaitProfile, arg := 0x1040 }
      port := { State.reset.port with accesses := [⟨[.read 0 1], []⟩] } }).window.adoption =
        some ⟨false, 0x1040, .behindHost 1⟩ := by decide
theorem test_profileRecordReadIssue :
    (after .profileRecordReadIssue (adopting true (.behindHost 0))).window.adoption = some ⟨true, 0x3000, .presented⟩ ∧
      (after .profileRecordReadIssue (adopting true (.behindHost 1))).window.adoption =
        some ⟨true, 0x3000, .behindHost 1⟩ := by decide
theorem test_profileRecordReadDone :
    let s := after .profileRecordReadDone (adopting false (.granted sampleRecord))
    s.window.main = some ⟨1, .accepted⟩ ∧ s.profile = some sampleProfile ∧ s.window.wall = .standby := by decide +kernel
theorem test_profileRecordReadDone_bad :
    let s := after .profileRecordReadDone (adopting false (.granted (sampleRecord.take 103)))
    s.window.main = some ⟨1, .refusedInvalid⟩ ∧ s.window.wall = .awaitProfile := by decide +kernel
theorem test_start :
    let s := after .start { standby with window := { standby.window with arg := 0x1000 } }
    s.window.wall = .showing ∧ s.follower.state = .fetching ∧ s.follower.follow = 0x1000 ∧ s.scheduler.anchor = 1000 := by
  decide
theorem test_start_bad_address :
    let s := after .start { standby with window := { standby.window with arg := 0x300000020 } }
    s.follower.state = .hold ∧ s.report.queue = [.fault ⟨.address, true, 0x20, 1000, 3⟩ false] := by decide
theorem test_redirect :
    let s := after .redirect { queued [entryOf (sceneCue 0x1000)] with window := { showing.window with arg := 0x2000 } }
    s.scheduler.queue = [] ∧ s.report.queue = [.outcome ⟨0x1000, .withdrawn⟩ false] ∧ s.follower.follow = 0x2000 := by
  decide
theorem test_resume :
    (after .resume (holding .link .link 0x1000)).follower.state = .awaitLink ∧
      (after .resume (holding .link .link 0x1000)).flag .dry = true := by decide
theorem test_stop :
    let s := after .stop lengthenable
    s.commit.stopFrame = some 1003 ∧ (s.tile 1).stopAt = some 1001 ∧ (s.tile 2).stopAt = none ∧
      s.window.main = some ⟨5, .busy⟩ := by decide
theorem test_wallReset :
    let s := after .wallReset (after .stop lengthenable)
    s.window.main = some ⟨6, .accepted⟩ ∧ s.window.wall = .standby ∧ s.commit.showing = [] ∧
      (s.tile 0).switches = [⟨1001, .level .street⟩] ∧ (s.tile 0).stopAt = none := by decide
theorem test_invalidateStore : (after .invalidateStore standby).store.job = some ⟨.invalidate, [(0, 0)]⟩ := by decide
theorem test_cmdInvalidCode : (after (.cmdInvalidCode 9) standby).window.main = some ⟨9, .refusedInvalid⟩ ∧
    exec (.cmdInvalidCode 7) standby = .refused .codeNamesCommand := ⟨by decide, rfl⟩
theorem test_cmdInvalidCode_busy :
    (after (.cmdInvalidCode 0) (after .stop showing)).window.side = some ⟨0, .refusedInvalid⟩ := by decide
theorem test_attnWrite :
    (after (.attnWrite 0x101) (raise .fault (raise .dry (raise .final standby)))).window.attn = 0x008 := by decide
theorem test_attnMaskWrite :
    let s := after (.attnMaskWrite 1) (raise .final standby)
    s.window.mask = 1 ∧ s.window.messages = 1 := by decide
theorem test_frameLoRead :
    let s := after .frameLoRead { standby with ftg := { standby.ftg with frame := 0x200000005 } }
    s.window.readData = 5 ∧ s.readRegister 0x1C = 2 := by decide
theorem test_registerWrite :
    (after (.registerWrite .argHigh 7) (after (.registerWrite .argLow 5) standby)).window.arg = 0x700000005 ∧
      (after (.registerWrite .frameLo 7) standby).window.arg = 0 := by decide
theorem test_hostWindowAccess :
    (after (.hostWindowAccess (.read 120 16)) standby).port.accesses = [⟨[.read 120 8, .read 128 8], []⟩] ∧
      exec (.hostWindowAccess (.read 0x1FFFFFFF 2)) standby = .fault .outsideShowMemory := ⟨by decide, rfl⟩

/-- Section 7.5.1: decisions 1 to 3 of the run, with the host's write behind the urgent engines 7 and 3. -/
theorem test_grantDecision :
    let lane (s : State) (k : Nat) : State :=
      s.updTile k (fun t => { t with engine := { t.engine with main := { plateLane with remainder := 1 }, active := true } })
    let s := { lane (lane showing 3) 7 with
      arbiter := ⟨5, 12⟩, port := { showing.port with accesses := [⟨[.write 8 [1, 2]], []⟩] } }
    let s1 := after .grantDecision s
    let s2 := after .grantDecision s1
    let s3 := after .grantDecision s2
    s1.arbiter = ⟨7, 12⟩ ∧ s2.arbiter = ⟨3, 12⟩ ∧ s2.mem = [] ∧ s3.mem = [(8, 1), (9, 2)] ∧ s3.port.accesses = [] := by
  decide +kernel
/-- Section 11.4.1: the second fault record is performed with SUPERSEDED set. -/
theorem test_grantDecision_superseded :
    let s := after .grantDecision (raise .fault (reporting [.fault ⟨.badTile, false, 0x2000040, 7000, 0x103⟩ false]))
    Memory.readBytes s.mem 0x20080 8 = [19, 1, 0, 0, 0x40, 0, 0, 2] ∧
      s.report.queue = [.fault ⟨.badTile, false, 0x2000040, 7000, 0x103⟩ true] := by decide +kernel
theorem test_frameStart :
    let s := after .frameStart standby
    s.now = 1001 ∧ s.ftg.clock = ⟨12, 0, 0, 1⟩ ∧ (s.tile 0).link.header = some ⟨0xE9, false⟩ ∧
      s.report.queue.length = 1 := by decide +kernel
theorem test_frameStart_mark :
    let s := after .frameStart (queued [entryOf { sceneCue 0x1000 with body := .mark 77 }])
    s.scheduler.lastFrame = some 1004 ∧ s.scheduler.queue = [] ∧
      s.commit.due.map (fun e => (e.record, e.visible, e.slip)) = [(0x1000, 1004, 4)] := by decide +kernel
theorem test_waitLimitSkip :
    let wait := entryOf { sceneCue 0x1000 with mode := .onTrigger, waitLimit := 1 }
    let s := after (.waitLimitSkip 0x1000) (queued [wait])
    s.report.queue.head? = some (.outcome ⟨0x1000, .skipped .noTrigger 0⟩ false) ∧ s.scheduler.queue = [] ∧
      s.now = 1001 ∧ after .frameStart s = s.setFtg { s.ftg with begun := false } := by decide +kernel
/-- R57, R69: a wait whose A falls by the skip goes at the next frame start; an entry that enters after the skip is
attempted at the next frame start too. -/
theorem test_waitLimitSkip_once :
    let wait (r : Nat) := entryOf { sceneCue r with mode := .onTrigger, waitLimit := 1 }
    let longer := { wait 0x2000 with cue := { (wait 0x2000).cue with waitLimit := 4 } }
    let s := after (.waitLimitSkip 0x1000) (queued [wait 0x1000, longer])
    let late := after .frameStart
      { s with scheduler := { s.scheduler with queue := [{ entryOf (sceneCue 0x3000) with attemptable := false }] } }
    s.scheduler.queue.map (·.cue.record) = [0x2000] ∧ (after .frameStart s).scheduler.queue.map (·.cue.record) = [0x2000] ∧
      late.commit.attempt = none ∧ (after .frameStart late).commit.attempt = some ⟨0x3000, [3], []⟩ := by decide +kernel
theorem test_commitDecision :
    let s := after .commitDecision (attempting (entryOf (sceneCue 0x1000)) plate)
    s.commit.showing.map (fun e => (e.id.record, e.visible, e.dwellEnd, e.clipped)) = [(0x1000, 1003, some 1013, false)] ∧
      (s.tile 0).switches.map (·.frame) = [1001] ∧
      s.report.queue = [.outcome ⟨0x1000, .committed 1003 3 false⟩ false] := by decide
theorem test_commitDecision_waits :
    let s := after .commitDecision (attempting (entryOf (sceneCue 0x1000)) { plate with state := .loading })
    s.scheduler.queue.map (·.slackUsed) = [1] ∧ s.commit.attempt = none ∧ s.report.queue = [] := by decide
theorem test_linkReadReturn :
    let s := after .linkReadReturn (following { state := .awaitLink, follow := 0x1000, position := .record, reason := none
                                                fetch := some (.link 0x1000 (some 0x30)) })
    s.follower.state = .hold ∧ s.follower.position = .link ∧ s.report.queue = [.fault ⟨.link, true, 0x1000, 1000, 0x30⟩ false] := by
  decide
theorem test_graceExpired :
    let s := after (.graceExpired 0) (withLink (fun l => { l with state := .inStep, startState := .inStep, missRun := 2 }) showing)
    (s.tile 0).link.state = .lost ∧ (s.tile 0).link.missCount = 1 ∧ s.flag .tile = true := by decide
theorem test_joinComplete :
    let s := after (.joinComplete 0)
      (withLink (fun l => { l with state := .joining, startState := .joining, joinCount := 2, echoes := [0xE8] }) showing)
    (s.tile 0).link.state = .inStep ∧ s.flag .tile = true := by decide
theorem test_lostTimeout :
    ((after (.lostTimeout 0) (withLink (fun l => { l with state := .lost, timer := 59 }) showing)).tile 0).link.state =
      .absent := by decide
theorem test_absentIdentify :
    let l := ((after (.absentIdentify 0) (withLink (fun l => { l with timer := 59 }) showing)).tile 0).link
    l.state = .training ∧ l.header = some ⟨0xE9, true⟩ := by decide
theorem test_trainingTimeout :
    ((after (.trainingTimeout 0) (withLink (fun l => { l with state := .training, timer := 29 }) showing)).tile 0).link.state =
      .absent := by decide
theorem test_echo : ((after (.echo 0 0xE8) sending).tile 0).link.echoes = [0xE8] := by decide
theorem test_descriptor :
    ((after (.descriptor 0 ⟨64, 64, 2, 5⟩) (withLink (fun l => { l with state := .training }) showing)).tile 0).link.latency =
      some 2 := by decide
theorem test_descriptor_misfit :
    let s := after (.descriptor 0 ⟨64, 64, 3, 5⟩) (withLink (fun l => { l with state := .training }) showing)
    (s.tile 0).link.state = .misfit ∧ s.flag .tile = true := by decide
theorem test_linkTakesPixel :
    let s := after (.linkTakesPixel 0) (withEngine (fun e =>
      { e with main := { e.main with words := [⟨0, 0x0004030200302010⟩] } }) sending)
    (s.tile 0).link.sent = some ⟨0x10, 0x20, 0x30⟩ ∧ (s.tile 0).engine.sendCol = 1 ∧
      (s.tile 0).engine.main.words.length = 1 := by decide
/-- R135: a black frame of 64 rows of 64 pixels ends with its last pixel. -/
theorem test_linkTakesPixel_black :
    let s := withLink (fun l => { l with blackRow := 63, blackCol := 63 }) showing
    let t := after (.linkTakesPixel 0) s
    (t.tile 0).link.sent = some ⟨0, 0, 0⟩ ∧ (t.tile 0).link.blackRow = 64 ∧ after (.linkTakesPixel 0) t = t := by
  decide
theorem test_linkTakesPixel_underrun :
    let s := after (.linkTakesPixel 0) sending
    (s.tile 0).link.sent = some ⟨1, 2, 3⟩ ∧ (s.tile 0).engine.underruns = 1 ∧ s.flag .underrun = true := by decide
theorem test_burstArrival :
    let s := withEngine (fun e => { e with flight := [⟨.main, 0, [5, 6], false⟩] }) sending
    let e1 := ((after (.burstArrival 0 ⟨0, 1⟩) s).tile 0).engine
    let e2 := ((after (.burstArrival 0 ⟨0, 1⟩) (after (.burstArrival 0 ⟨0, 1⟩) s)).tile 0).engine
    e1.main.words = [⟨0, 5⟩] ∧ e1.flight = [⟨.main, 0, [6], false⟩] ∧ e1.free .main = 1022 ∧
      e2.main.words = [⟨0, 5⟩, ⟨0, 6⟩] ∧ e2.flight = [] := by decide
theorem test_burstArrival_stale :
    ((after (.burstArrival 0 ⟨0, 2⟩) (withEngine (fun e => { e with flight := [⟨.main, 0, [5, 6], true⟩] }) sending)).tile 0
      ).engine.main.words = [] := by decide
theorem test_fetchBegin :
    (after .fetchBegin (following ⟨.fetching, 0x1000, .record, none, none⟩)).follower.fetch =
      some (.record 0x1000 [] none) := by decide
theorem test_recordWordsArrived :
    let s := after .recordWordsArrived (fetched (markRecord 0x40 77))
    s.scheduler.queue.map (·.cue.body) = [.mark 77] ∧ s.follower.state = .fetching ∧ s.follower.follow = 0x40 ∧
      s.report.queue = [.outcome ⟨0x1000, .queued⟩ false] := by decide
theorem test_recordWordsArrived_marker :
    let s := after .recordWordsArrived (fetched (0 :: (markRecord 0x40 77).tail))
    s.follower.state = .hold ∧ s.report.queue = [.fault ⟨.marker, true, 0x1000, 1000, 0x5A00⟩ false] := by decide
theorem test_departingWriteReceived :
    let s := after .departingWriteReceived (queued [{ entryOf (sceneCue 0x1000) with departing := some .withdrawn }])
    s.scheduler.queue = [] ∧ s.report.queue = [.outcome ⟨0x1000, .withdrawn⟩ false] := by decide
theorem test_holdFaultReceived :
    let f : FaultRecord := ⟨.link, true, 0x1000, 1000, 0x30⟩
    (after .holdFaultReceived { showing with report := { Report.reset with holdFaults := [f] } }).report.queue =
      [.fault f false] := by decide
theorem test_handoffWriteReceived :
    let s := after .handoffWriteReceived { showing with commit := { CommitUnit.reset with handoff := [⟨0x1000, .released⟩] } }
    s.report.queue = [.outcome ⟨0x1000, .released⟩ false] ∧ s.commit.handoff = [] := by decide
theorem test_outcomeWriteLanded :
    let s := after .outcomeWriteLanded (reporting [.outcome ⟨0x1000, .released⟩ true])
    s.report.handback = 1 ∧ s.flag .final = true ∧ s.report.queue = [] := by decide
theorem test_faultRecordLanded :
    let s := after .faultRecordLanded (reporting [.fault ⟨.link, true, 0x1000, 1000, 0x30⟩ true])
    s.flag .fault = true ∧ s.flag .hold = true := by decide
theorem test_refreshLanded :
    let s := after .refreshLanded (reporting [.refresh (pageSnapshot showing) 6 true false])
    s.flag .mark = true ∧ s.flag .store = false ∧ s.report.queue = [] := by decide
theorem test_eventInputActive :
    (after (.eventInputActive .trigger) showing).ftg.trigger = .qualifying 0 ∧
      (after (.eventInputActive .pulse) showing).ftg.alignPending = true := by decide
theorem test_eventInputInactive :
    (after (.eventInputInactive .trigger) (after (.eventInputActive .trigger) showing)).ftg.trigger = .idle := by decide
theorem test_filterWidthReached :
    let wait := entryOf { sceneCue 0x1000 with mode := .onTrigger }
    let s := after (.filterWidthReached .trigger) (after (.eventInputActive .trigger) (queued [wait]))
    s.ftg.trigger = .waitInactive ∧ s.scheduler.queue.map (·.eventFrame) = [some 1004] := by decide
theorem test_ambientPoll : (after .ambientPoll showing).ambient.inFlight = some 0 := by decide
/-- Section 9.5.1, poll 1: a reading of 1000 has the bytes 62 and 128. -/
theorem test_sensorReading :
    (after (.sensorReading 62 128) (after .ambientPoll showing)).ambient.average = some 2125 := by decide
theorem test_sensorReadFailure :
    let s := after .sensorReadFailure
      { showing with ambient := { showing.ambient with failures := 7, confirm := 1, inFlight := some 3 } }
    s.ambient.status = .fault ∧ s.ambient.confirm = 0 ∧ s.flag .ambient = true := by decide
theorem test_byteWriteDone :
    let s := after .byteWriteDone { standby with
      store := { standby.store with eeprom := [9, 9], image := [some 9, some 9], job := some ⟨.trim, [(1, 4), (0, 5)]⟩ } }
    s.store.eeprom = [9, 4] ∧ s.store.image = [some 9, some 4] ∧ s.store.job = some ⟨.trim, [(0, 5)]⟩ := by decide
theorem test_byteWriteFailed :
    let s := after .byteWriteFailed { standby with
      store := { standby.store with eeprom := [9, 9], image := [some 9, some 9], job := some ⟨.trim, [(1, 4), (0, 5)]⟩ } }
    s.store.eeprom.getD 0 0 = 9 ∧ s.store.image = [some 9, none] ∧ s.store.job = none ∧
      s.store.result = some (.trim, .failed) ∧ s.report.resultNew = true := by decide
theorem test_messageSignallingChange :
    let s := raise .final (after (.messageSignallingChange false) (after (.attnMaskWrite 1) standby))
    s.window.messages = 0 ∧ s.flag .final = true := by decide

/-! ## The queue of commands -/

theorem test_step_runs_in_order :
    (match step (showing.setPending [.ambientPoll, .frameStart]) with
      | .next t => t.pending = [.frameStart] ∧ t.ambient.inFlight = some 0
      | .fault _ => False
      | .refused _ => False) := by
  exact ⟨rfl, rfl⟩

/-! ## Witnesses: for the hypotheses of every statement, states and operands that meet them -/

/-- The invariants hold in states a showing goes through. -/
theorem test_witness_control_showing : ControlInv showing :=
  ⟨by decide, by decide, by decide, by decide, by decide⟩
theorem test_witness_control_stopping : ControlInv (after .stop showing) :=
  ⟨by decide, by decide, by decide, by decide, by decide⟩

/-- Eight records, the most the look-ahead queue holds. -/
def fullQueue : State := queued ((List.range 8).map (fun i => entryOf (sceneCue (64 * (i + 1)))))

theorem lookAhead_of_no_fetch {s : State} (h : s.fetchingRecord = none) (room : s.scheduler.queue.length ≤ 8)
    (distinct : (s.scheduler.queue.map (·.cue.record)).Nodup) : LookAheadInv s :=
  ⟨by simpa [h, Config.queueDepth] using room, distinct, fun a ha => by rw [h] at ha; cases ha⟩

theorem test_witness_ShowMemoryChangesAtGrantsOnly :
    Instr.start ≠ .grantDecision ∧ exec .start standby = .next (after .start standby) := ⟨by decide, rfl⟩
theorem test_witness_MemoryStaysCanonical :
    let s : State := { showing with mem := [(5, 1), (9, 2)], pending := [.grantDecision] }
    Memory.wf s.mem = true ∧ step s = .next { s with pending := [] } := ⟨by decide, rfl⟩
theorem test_witness_ControlInvariantKept :
    let s := (after .stop showing).setPending [.frameStart]
    ControlInv s ∧ step s = .next (after .frameStart (s.setPending [])) :=
  ⟨⟨by decide, by decide, by decide, by decide, by decide⟩, rfl⟩
theorem test_witness_LookAheadQueueBoundsKept :
    let s := fullQueue.setPending [.fetchBegin]
    LookAheadInv s ∧ step s = .next (after .fetchBegin (s.setPending [])) :=
  ⟨lookAhead_of_no_fetch rfl (by decide) (by decide), rfl⟩
theorem test_witness_WriteQueuePlacesKept :
    let s := (reporting (List.replicate 64 (.outcome ⟨64, .queued⟩ true))).setPending [.frameStart]
    WriteQueueInv s ∧ step s = .next (after .frameStart (s.setPending [])) :=
  ⟨by unfold WriteQueueInv; decide, rfl⟩
theorem forall_tile {P : Tile → Prop} {s : State} (h0 : P .reset) (h : ∀ t ∈ s.tiles, P t) (k : Nat) : P (s.tile k) := by
  unfold State.tile
  rw [List.getD_eq_getElem?_getD]
  cases hk : s.tiles[k]? with
  | none => exact h0
  | some t => exact h t (List.mem_of_getElem? hk)

/-- Full tables, and a tile with 16 entries to come. -/
theorem test_witness_TableDepthsKept :
    let s : State := { showing with
      commit := { CommitUnit.reset with showing := List.replicate 24 shownEntry, due := List.replicate 16 dueMark }
      port := { showing.port with accesses := List.replicate 8 ⟨[.read 0 1], []⟩ }
      scheduler := { showing.scheduler with queue := [entryOf (sceneCue 64)] }
      tiles := { Tile.reset with
        switches := List.replicate 16 ⟨1001, .level .dusk⟩
        link := { Link.reset with state := .inStep, descriptor := some ⟨64, 64, 2, 0⟩ } } :: List.replicate 15 .reset
      pending := [.frameStart] }
    ControlInv s ∧ DepthInv s ∧ SwitchInv s ∧ step s = .next (after .frameStart (s.setPending [])) := by
  refine ⟨⟨by decide, by decide, by decide, by decide, by decide⟩, ⟨by decide, by decide, by decide, by decide⟩, ?_, rfl⟩
  exact ⟨forall_tile (P := fun t => t.switches.countP (fun sw => sw.frame != 1000) ≤ 16) (by decide) (by decide),
    forall_tile (P := fun t => t.switches.Pairwise (fun x y => x.frame ≤ y.frame)) (by decide) (by decide),
    forall_tile (P := fun t => ∀ sw ∈ t.switches, 1000 < sw.frame) (by decide) (by decide),
    forall_tile (P := fun t => ∀ n, t.link.latency = some n → n ≤ 2)
      (by intro n h; cases h)
      (by
        intro t ht n hn
        rcases List.mem_cons.1 ht with rfl | ht
        · cases hn; decide
        · cases List.eq_of_mem_replicate ht; cases hn),
    (by intro h; cases h),
    (by
      intro e he
      cases List.mem_singleton.1 he
      exact (by decide : ([⟨0, 3, 0, 0, none⟩].map Assignment.tile).Nodup))⟩
theorem test_witness_WallStateTransitions :
    ControlInv showing ∧ exec .stop showing = .next (after .stop showing) := ⟨test_witness_control_showing, rfl⟩
theorem test_witness_ProfileAndBeatLockedUntilReset :
    let wait := queued [entryOf { sceneCue 0x1000 with mode := .onTrigger, waitLimit := 1 }]
    ControlInv showing ∧ showing.profile = some sampleProfile ∧ (∀ cut, Instr.frameStart ≠ .deviceReset cut) ∧
      exec .frameStart showing = .next (after .frameStart showing) ∧ ControlInv wait ∧
      exec (.waitLimitSkip 0x1000) wait = .next (after (.waitLimitSkip 0x1000) wait) ∧
      (after (.waitLimitSkip 0x1000) wait).ftg.begun = true ∧ (∀ record, Instr.frameLoRead ≠ .waitLimitSkip record) :=
  ⟨test_witness_control_showing, rfl, by intro cut; cases cut <;> decide, rfl,
    ⟨by decide, by decide, by decide, by decide, by decide⟩, rfl, by decide +kernel, (by intro _ h; cases h)⟩
theorem test_witness_OneMessagePerTransition :
    let s := after (.attnMaskWrite 8) (holding .link .link 0x1000)
    exec .resume s = .next (after .resume s) ∧ s.window.attending = false ∧
      (after .resume s).window.attending = true ∧ (after .resume s).window.signalling = true := by
  exact ⟨rfl, by decide, by decide, by decide⟩
theorem test_witness_AttentionFlagsStaySet :
    (∀ cut, Instr.frameLoRead ≠ .deviceReset cut) ∧ (∀ v, Instr.frameLoRead ≠ .attnWrite v) ∧
      (∀ v, Instr.frameLoRead ≠ .attnMaskWrite v) ∧
      exec .frameLoRead (raise .final showing) = .next (after .frameLoRead (raise .final showing)) :=
  ⟨(by intro _ h; cases h), (by intro _ h; cases h), (by intro _ h; cases h), rfl⟩
theorem test_witness_CommittedScenesStand :
    Instr.redirect ≠ .frameStart ∧ (∀ record, Instr.redirect ≠ .waitLimitSkip record) ∧ Instr.redirect ≠ .wallReset ∧
      (∀ cut, Instr.redirect ≠ .deviceReset cut) ∧
      exec .redirect lengthenable = .next (after .redirect lengthenable) ∧ shownEntry ∈ lengthenable.commit.showing :=
  ⟨by decide, (by intro _ h; cases h), by decide, (by intro _ h; cases h), rfl, by decide⟩

/-- A scene that becomes visible and takes tile 0 from the one before; a due MARK, and a PERSIST TRIM behind a job. -/
theorem test_witness_CommittedScenesStand_frameStart :
    let later : ShowEntry := { shownEntry with id := ⟨0x3000, 8⟩, visible := 1001, shown := false }
    let trim : DueEntry := { dueMark with record := 128, pass := 10, body := .trim [⟨0, some 3, none⟩], persist := true }
    let s : State := withTile (fun t => { t with switches := [⟨1001, .scene plate.snapshot 0 0 none (.fade 2) ⟨0x3000, 8⟩⟩] })
      { showing with
        store := { showing.store with job := some ⟨.trim, [(1, 9)]⟩ }
        commit := { CommitUnit.reset with showing := [shownEntry, later], due := [dueMark, trim], commitCount := 10 } }
    s.ftg.running = true ∧ s.ftg.begun = false ∧ (s.commit.showing.map (·.id)).Nodup ∧ s.commit.showing[0]? = some shownEntry ∧
      s.commit.showing[1]? = some later ∧ shownEntry.held.Nodup ∧ shownEntry.shown = true ∧ shownEntry.held = [0] ∧
      later.visible = s.now + 1 ∧ later.shown = false ∧
      ⟨s.now + 1, .scene plate.snapshot 0 0 none (.fade 2) later.id⟩ ∈ (s.tile 0).switches ∧
      (s.tile 1).switches = [] ∧ shownEntry.keep = false ∧ dueMark ∈ s.commit.due ∧ dueMark.visible = s.now + 1 ∧
      dueMark.body = .mark 77 ∧ trim.visible = s.now + 1 ∧ trim.persist = true ∧ s.store.job.isSome = true := by decide

/-- R93, R94: two visible entries that no tile holds leave, one of them KEEP: one RELEASED; the MARK leaves the due list,
and the refresh of this frame start carries its tag. -/
theorem test_frameStart_releases :
    let e (r : Nat) (keep : Bool) : ShowEntry := { shownEntry with id := ⟨r, 7⟩, held := [], keep := keep }
    let s : State := { showing with
      commit := { CommitUnit.reset with showing := [e 0x2000 false, e 0x3000 true], due := [dueMark] } }
    let t := after .frameStart s
    t.commit.showing = [] ∧ t.commit.due = [] ∧ handedCount 0x2000 .released t = 1 ∧ handedCount 0x3000 .released t = 0 ∧
      (untilRefresh s).report.tagNew = true ∧ t.report.tagNew = false ∧ t.report.tag = 77 := by decide +kernel

/-- Every clause of the increment, at its fields' boundary values. -/
theorem test_witness_ShowClockIncrementCarries :
    (showing.ftg.running = true ∧ showing.ftg.begun = false ∧
      (∀ e ∈ showing.ftg.clockSets, e.visible ≠ showing.now + 1) ∧ showing.ftg.alignPending = false) ∧
    (Clock.mk 30 61 10 58).frame < 60 - 1 ∧
    (60 - 1 ≤ (Clock.mk 0 0 58 59).frame ∧ (Clock.mk 0 0 58 59).seconds < 59) ∧
    (60 - 1 ≤ (Clock.mk 0 58 59 59).frame ∧ 59 ≤ (Clock.mk 0 58 59 59).seconds ∧ (Clock.mk 0 58 59 59).minutes < 59) ∧
    (60 - 1 ≤ (Clock.mk 22 61 59 59).frame ∧ 59 ≤ (Clock.mk 22 61 59 59).seconds ∧
      59 ≤ (Clock.mk 22 61 59 59).minutes ∧ (Clock.mk 22 61 59 59).hours < 23) ∧
    (60 - 1 ≤ (Clock.mk 30 61 59 59).frame ∧ 59 ≤ (Clock.mk 30 61 59 59).seconds ∧
      59 ≤ (Clock.mk 30 61 59 59).minutes ∧ 23 ≤ (Clock.mk 30 61 59 59).hours) := by decide

/-- Exactly at the late window's edge, and one frame inside it (R64). -/
theorem test_witness_AtTargetIsTheTimeOfDay :
    0 < sampleProfile.rate ∧ sampleProfile.lateWindow ≤ 3600 ∧
      (atTarget sampleProfile 9000 ⟨12, 5, 0, 0⟩ ⟨12, 0, 0, 0⟩).2 = false ∧
      (atTarget sampleProfile 9000 ⟨12, 4, 59, 59⟩ ⟨12, 0, 0, 0⟩) = (9000 - 17999, true) := by decide
theorem test_witness_PlateEntryValidity :
    (plate.state = .ready ∧ plate.invalid = false) ∧
      (({ plate with state := .loading, stride := 49 } : PlateEntry).state = .loading ∧
        ({ plate with state := .loading, stride := 49 } : PlateEntry).invalid = true) ∧
      ({ plate with state := .empty } : PlateEntry).state = .empty ∧
      ({ plate with state := .other } : PlateEntry).state = .other := by decide

/-- The last word of the last row of a plate that ends where show memory does. -/
theorem test_witness_FetchStaysInsideTheExtent :
    let e : PlateEntry := { state := .ready, base := 0x20000000 - 50 * 51 * 8, width := 101, height := 50, stride := 51 }
    let c := contentOf (64, 64) e.snapshot 41 10 none
    e.fits = true ∧ 39 < c.rIn ∧ 30 < c.words ∧ 8 * (c.rowStart 39 + 30) + 8 = 0x20000000 := by decide
theorem test_witness_FadeMixIsTheRoundedMean : 255 ≤ 255 ∧ 0 ≤ 255 ∧ 1 ≤ 2 ∧ 1 ≤ 2 ∧ mix 255 0 2 1 = 128 := by decide
theorem test_witness_LevelStageScalesAndSaturates :
    255 ≤ 255 ∧ Scan.reset.set = .street ∧ Scan.reset.street = 16 ∧ (Scan.reset.takeLevel .dusk).set = .dusk ∧
      (Scan.reset.takeLevel .dusk).dusk = 16 ∧ Scan.reset.level 160 255 = 255 := by decide
/-- Scenes and a mark behind each other, and an entry alone behind the last committed frame and scene. -/
theorem test_witness_VisibleFramesFollowChainOrder :
    let s := queued [entryOf (sceneCue 64), entryOf { sceneCue 128 with body := .mark 1 }, entryOf (sceneCue 192)]
    let alone (c : Cue) : State := { queued [entryOf c] with scheduler := { showing.scheduler with
      queue := [entryOf c], lastFrame := some 1100, lastScene := some ⟨⟨0x2000, 7⟩, 1100, 0, some 1000, true⟩ } }
    (s.evals.map (·.vEff) = [some 1003, some 1013, some 1013]) ∧ (s.evals.map (·.derived) = [some 1000, some 1013, some 1013]) ∧
      (s.evals.map (·.entry.cue.body.isScene) = [true, false, true]) ∧
      (alone (sceneCue 64)).evals.map (·.vEff) = [some 1101] ∧
      (alone { sceneCue 64 with body := .mark 1 }).evals.map (·.vEff) = [some 1100] := by decide

/-- Every kind of reference and derived V: the anchor, a resolved and an unresolved scene, an open dwell queued and
committed, a fixed dwell end; AFTER, AT and an event wait, resolved and not; a departing entry not counted. -/
theorem test_witness_VisibleFramesFollowChainOrder_references :
    let open0 := entryOf { sceneCue 64 with dwell := 0 }
    let wait := entryOf { sceneCue 128 with mode := .onTrigger }
    let at0 := entryOf { sceneCue 192 with mode := .atTime }
    let after := entryOf { sceneCue 256 with body := .mark 1 }
    let gone := { wait with departing := some .noTrigger }
    let committed (d : Option Nat) : State := { showing with scheduler := { showing.scheduler with
      queue := [after], lastScene := some ⟨⟨0x2000, 7⟩, 990, 250, d, true⟩ } }
    (queued [open0, after]).evals.map (fun v => (v.ref, v.vEff)) = [(.frame 1000, some 1003), (.opened 1003, none)] ∧
      (queued [wait, after]).evals.map (fun v => (v.ref, v.derived, v.vEff)) =
        [(.frame 1000, none, none), (.unknown, none, none)] ∧
      (queued [at0, { after with target := some 1 }]).evals.map (·.vEff) = [none, none] ∧
      (queued [{ at0 with target := some 1007 }]).evals.map (·.vEff) = [some 1007] ∧
      (queued [gone, { wait with eventFrame := some 1004 }]).evals.map (·.vEff) = [some 1004] ∧
      (committed none).evals.map (·.ref) = [.opened 990] ∧ (committed (some 1250)).evals.map (·.vEff) = [some 1250] := by
  decide

/-- The slip of a late entry, and one saturated. -/
theorem test_witness_VisibleFramesFollowChainOrder_slip :
    let late (n : Int) := queued [{ entryOf { sceneCue 64 with mode := .atTime } with target := some n }]
    (late 1000).evals.map (fun v => (v.vEff, v.slip)) = [(some 1003, 3)] ∧
      (late (-64533)).evals.map (·.slip) = [65535] ∧ (late (-64532)).evals.map (·.slip) = [65535] ∧
      (late (-64531)).evals.map (·.slip) = [65534] := by decide

theorem test_witness_DeviceResetClearsThePart :
    let s : State := { showing with store := { showing.store with eeprom := [1, 2], job := some ⟨.trim, [(1, 9)]⟩ } }
    s.store.job = some ⟨.trim, (1, 9) :: []⟩ ∧ showing.store.job = none := by decide
theorem test_witness_LoadingEndAdoptsOrAwaits :
    let s : State := { State.reset with store := .loading sampleImage }
    s.window.wall = .loading ∧ s.store.state = .loading ∧
      imageContent (readImage s.store.eeprom []) = some sampleProfile ∧
      imageContent (readImage s.store.eeprom [0]) = none ∧ sampleImage[0]? = some 0xA5 ∧ sampleImage.length = 512 ∧
      s.ambient.level = .street ∧ sampleProfile.tiles = 2 := by decide +kernel
/-- The image and the record of a wall in FORCE_DUSK, taken with the last place free and with none, and with a full pending
list. -/
theorem test_witness_FrameZeroTaken :
    let block := sampleBlock.set 16 2
    let body := [(0xA5 : Byte), 1] ++ block ++ List.replicate 32 16 ++ List.replicate 381 0
    let s (writes switches : Nat) : State := { State.reset with
      store := .loading (body ++ [byteSum body])
      report := { Report.reset with queue := List.replicate writes (.outcome ⟨64, .queued⟩ true) }
      tiles := { Tile.reset with switches := List.replicate switches ⟨5, .level .street⟩ } :: List.replicate 15 .reset }
    let t := after (.loadingEnd []) (s 63 15)
    let u := after (.loadingEnd []) (s 64 16)
    ((s 63 15).window.wall = .loading ∧ (s 63 15).store.state = .loading ∧ (s 63 15).ambient.level = .street ∧
      imageContent (readImage (s 63 15).store.eeprom []) =
        some { sampleProfile with ambientMode := .forceDusk, block := block } ∧
      profileOfRecord ([0xD1, 0x5A, 0, 0, 0, 0, 0, 0] ++ block) =
        some { sampleProfile with ambientMode := .forceDusk, block := block } ∧
      (s 63 15).openPlaces = 1 ∧ (s 64 16).openPlaces = 0) ∧
    (t.report.queue.length = 64 ∧ t.ambient.level = .dusk ∧ t.flag .ambient = true ∧ t.commit.levelRequest = none ∧
      ⟨1, .level .dusk⟩ ∈ (t.tile 0).switches ∧ ⟨1, .level .dusk⟩ ∈ (t.tile 1).switches) ∧
    (u.report.skipped = 1 ∧ u.flag .ambient = true ∧ u.commit.levelRequest = some ⟨.dusk, 3⟩ ∧
      (u.tile 1).switches = []) := by
  decide +kernel
theorem test_witness_AdoptProfileWaitsToRead :
    let s (arg : BitVec 64) : State := { State.reset with window := { State.reset.window with wall := .awaitProfile, arg := arg } }
    ((s 0).window.wall = .awaitProfile ∧ (s 0).window.busy = false ∧ ¬ GoodAddress (s 0x1FFFFFE0).window.arg.toNat ∧
      GoodAddress (s 0x1FFFFFC0).window.arg.toNat) ∧
    ((adopting true (.behindHost 0)).window.adoption = some ⟨true, 0x3000, .behindHost 0⟩) ∧
    ((adopting true (.behindHost 1)).window.adoption = some ⟨true, 0x3000, .behindHost 1⟩ ∧
      AdoptPhase.behindHost 1 ≠ .behindHost 0 ∧ AdoptPhase.presented ≠ .behindHost 0 ∧ standby.window.adoption = none) := by
  unfold GoodAddress
  decide

/-- A refused record; a valid one with persist and a job of byte writes, and one whose image holds every byte already. -/
theorem test_witness_ProfileRecordIsJudged :
    let fresh : State := { adopting true (.granted sampleRecord) with store := { standby.store with image := List.replicate 512 none } }
    (adopting true (.granted [])).window.adoption = some ⟨true, 0x3000, .granted []⟩ ∧ profileOfRecord [] = none ∧
      (adopting true (.granted [])).window.main = some ⟨1, .busy⟩ ∧ profileOfRecord sampleRecord = some sampleProfile ∧
      contentWrites fresh.store.image (profileContent fresh.store.image sampleProfile fresh.tiles) ≠ [] ∧
      contentWrites (adopting true (.granted sampleRecord)).store.image
        (profileContent (adopting true (.granted sampleRecord)).store.image sampleProfile
          (adopting true (.granted sampleRecord)).tiles) = [] ∧
      fresh.store.image.length = 512 ∧ sampleProfile.block.length = 96 ∧ fresh.tiles.length = 16 ∧
      fresh.tiles[15]? = some .reset := by decide +kernel

theorem test_witness_StartBeginsTheShowing :
    let s (arg : BitVec 64) : State := { standby with window := { standby.window with arg := arg } }
    (s 0x1FFFFFC0).window.wall = .standby ∧ (s 0x1FFFFFC0).window.busy = false ∧
      GoodAddress (s 0x1FFFFFC0).window.arg.toNat ∧ ¬ GoodAddress (s 0x20000000).window.arg.toNat ∧
      (s 0x20000000).window.wall = .standby ∧ (s 0x20000000).window.busy = false := by
  unfold GoodAddress
  decide
theorem test_witness_RedirectWithdrawsAndFollows :
    let s (arg : BitVec 64) : State := { fullQueue with window := { showing.window with arg := arg } }
    (LookAheadInv (s 0x2000) ∧ (s 0x2000).window.wall = .showing ∧ (s 0x2000).window.busy = false ∧
      GoodAddress (s 0x2000).window.arg.toNat) ∧
    (LookAheadInv (s 0x20000000) ∧ (s 0x20000000).window.wall = .showing ∧ (s 0x20000000).window.busy = false ∧
      ¬ GoodAddress (s 0x20000000).window.arg.toNat) :=
  ⟨⟨lookAhead_of_no_fetch rfl (by decide) (by decide), by decide, by decide, by unfold GoodAddress; decide⟩,
    lookAhead_of_no_fetch rfl (by decide) (by decide), by decide, by decide, by unfold GoodAddress; decide⟩
theorem test_witness_ResumeLeavesTheHold :
    let ok (s : State) : Prop := s.window.wall = .showing ∧ s.follower.state = .hold ∧ s.window.busy = false
    ok (holding .link .link 64) ∧ (holding .link .link 64).scheduler.queue = [] ∧ ok (holding .record .stale 64) ∧
      ok (holding .record .address 64) ∧ GoodAddress (holding .record .address 64).follower.follow ∧
      ok (holding .record .address 65) ∧ ¬ GoodAddress (holding .record .address 65).follower.follow := by
  unfold GoodAddress
  decide
theorem test_witness_StopPlacesTheStopFrame :
    let s : State := { after .stop showing with ftg := { showing.ftg with frame := 1002 } }
    (lengthenable.window.wall = .showing ∧ lengthenable.window.busy = false ∧ lengthenable.commit.showing ≠ []) ∧
    (fullQueue.window.wall = .showing ∧ fullQueue.window.busy = false ∧ LookAheadInv fullQueue) ∧
    (s.ftg.running = true ∧ s.ftg.begun = false ∧ s.commit.stopFrame = some (s.now + 1) ∧ s.window.main = some ⟨5, .busy⟩) :=
  ⟨by decide, ⟨by decide, by decide, lookAhead_of_no_fetch rfl (by decide) (by decide)⟩, by decide⟩
theorem test_witness_WallResetClearsTheShowing :
    standby.window.wall = .standby ∧ showing.window.wall = .showing ∧ (after .stop showing).window.wall = .stopping ∧
      (after .stop showing).window.stopBusy = true ∧ (after .invalidateStore standby).window.busy = true ∧
      (after .invalidateStore standby).window.stopBusy = false := by decide
theorem test_witness_InvalidateStoreWritesTheMarker :
    standby.window.wall = .standby ∧ standby.window.busy = false ∧ standby.store.job = none := by decide
theorem test_witness_RefusedCommandsChangeNothing :
    commandOf .resume = some .resume ∧ judge .resume showing = some .refusedState ∧
      commandOf (.adoptProfile true) = some .adoptProfile ∧ judge .adoptProfile showing = some .refusedLocked ∧
      commandOf .start = some .start ∧ judge .start (after .invalidateStore standby) = some .refusedBusy ∧
      State.reset.window.wall = .loading ∧ (adopting true .presented).window.wall = .awaitProfile ∧
      (after .stop showing).window.wall = .stopping ∧ (after .invalidateStore standby).window.busy = true ∧
      (after .invalidateStore standby).store.job.isSome = true ∧ showing.follower.state ≠ .hold ∧
      (adopting true .presented).window.busy = true ∧
      judge .adoptProfile (adopting true .presented) = some .refusedBusy := by decide
theorem test_witness_InvalidCodesAreRefused :
    namesCommand 0 = false ∧ namesCommand 8 = false ∧ namesCommand 7 = true ∧ standby.window.main = none ∧
      standby.window.side = none ∧ (0xFFFFFE05 : BitVec 32).extractLsb' 0 9 = (0x005 : BitVec 32).extractLsb' 0 9 := by decide

theorem test_witness_FrameAndArgRegisters :
    ({ standby with ftg := { standby.ftg with frame := 2 ^ 48 - 1 } } : State).now < 2 ^ 48 := by decide
theorem test_witness_HostAccessEntersThePort :
    (WindowAccess.write 0x1FFFFFFF [1]).wf = true ∧ (WindowAccess.read 1 128).wf = true ∧
      showing.port.accesses.length < 8 ∧ showing.port.backlog = [] ∧
      8 ≤ (List.replicate 8 (PortAccess.mk [.read 0 1] [])).length ∧ Memory.wf [(5, 1)] = true ∧
      1 ≤ 1 ∧ 1 ≤ 128 ∧ 0x20000000 < 0x20000000 + 1 := by decide

/-- Accesses of one byte, of a whole block, and over a block's end; outside the window and malformed. -/
theorem test_witness_HostAccessEntersThePort_parts :
    ((WindowAccess.write 127 [1]).wf = true ∧ [(1 : Byte)].length ≤ 128 - 127 % 128) ∧
    ((WindowAccess.write 127 [1, 2]).wf = true ∧ 128 - 127 % 128 < [(1 : Byte), 2].length) ∧
    ((WindowAccess.read 128 128).wf = true ∧ 128 ≤ 128 - 128 % 128) ∧
    ((WindowAccess.read 129 128).wf = true ∧ 128 - 129 % 128 < 128) ∧
    (1 ≤ [(1 : Byte)].length ∧ [(1 : Byte)].length ≤ 128 ∧ 0x20000000 < 0x20000000 + [(1 : Byte)].length) ∧
    (128 < (List.replicate 129 (0 : Byte)).length ∧ ([] : List Byte) = []) := by decide +kernel

/-- Engine 1 is urgent and first after pointer 15, engine 0 not waiting; its row has 32, 17, 16 or 1 words to request. -/
theorem test_witness_UrgentEngineIsGrantedFirst :
    let s (n : Nat) := { showing with arbiter := ⟨15, 15⟩ }.updTile 1 (fun t =>
      { t with engine := { t.engine with main := { plateLane with remainder := n }, active := true } })
    ∀ n ∈ [32, 17, 16, 1], FirstAfter (s n).arbiter.urgentPtr 1 true (s n) ∧ 1 < (s n).tiles.length := by
  unfold FirstAfter
  decide +kernel
theorem test_grant_reads_the_next_words :
    let lane (r n : Nat) := { plateLane with fetchRow := r, remainder := n }
    let s (l : Lane) := { showing with mem := [(0x400000 + 8 * 31, 7)] }.updTile 1 (fun t =>
      { t with engine := { t.engine with main := l, active := true } })
    let e (l : Lane) := ((after .grantDecision (s l)).tile 1).engine
    (e (lane 0 1)).flight = [⟨.main, 0, [7], false⟩] ∧ (e (lane 0 1)).main = lane 1 32 ∧
      (e (lane 63 16)).main = lane 64 0 ∧ (e (lane 0 32)).main = lane 0 16 := by decide +kernel
theorem test_witness_HostBurstIsGrantedNext :
    let s (ps : List AccessPart) (b : List WindowAccess) : State := { showing with port := ⟨[⟨ps, []⟩], b, []⟩ }
    let a : State := { adopting false (.behindHost 1) with port := ⟨[⟨[.read 8 1], []⟩], [], []⟩ }
    ((∀ k, k < 16 → ((s [.write 8 [1]] []).tile k).engine.waiting true = false) ∧
      (s [.write 8 [1]] []).port.accesses = ⟨.write 8 [1] :: [], []⟩ :: [] ∧ Memory.wf (s [.write 8 [1]] []).mem = true ∧
      (s [.read 120 8, .read 128 8] []).port.accesses = ⟨.read 120 8 :: [.read 128 8], []⟩ :: [] ∧
      (s [.read 8 1] [.read 0 1]).port.backlog = .read 0 1 :: [] ∧ 0 < 1 ∧ showing.window.adoption = none) ∧
    ((∀ k, k < 16 → (a.tile k).engine.waiting true = false) ∧ a.port.accesses = ⟨.read 8 1 :: [], []⟩ :: [] ∧
      a.window.adoption = some ⟨false, 0x3000, .behindHost 1⟩) := by decide
/-- R24, R52, R93: while a fade holds old content of record 0x1000, the record's RELEASED is not presented, and nothing
behind it is; another record's is, and another write of the record. -/
theorem test_presented_released :
    let o (r : Nat) (k : OutcomeKind) (g : Bool) : QueueItem := .outcome ⟨r, k⟩ g
    presented [0x1000] 0 false [o 0x1000 .released false, o 0x2000 .queued false] = none ∧
      presented [0x1000] 0 false [o 0x1000 .released true, o 0x2000 .queued false] = some 1 ∧
      presented [0x1000] 0 false [o 0x2000 .released false] = some 0 ∧
      presented [0x1000] 0 false [o 0x1000 .queued false] = some 0 := by decide
/-- R24, R90, R93: tile 0 takes a FADE 1 from record 0x2000, whose RELEASED is handed on at once and reaches show memory
only after the frame start that ends the fade. -/
theorem test_released_waits_for_the_fade :
    let later : ShowEntry := { shownEntry with id := ⟨0x3000, 8⟩, visible := 1003, shown := false }
    let s : State := withTile (fun t => { t with
        scan := { t.scan with current := contentOf (64, 64) plate.snapshot 0 0 none, cue := some ⟨0x2000, 7⟩ }
        switches := [⟨1001, .scene plate.snapshot 0 0 none (.fade 1) ⟨0x3000, 8⟩⟩] })
      { showing with commit := { CommitUnit.reset with showing := [shownEntry, later] } }
    let state (t : State) := Memory.read t.mem (0x2000 + 40)
    let fading := after .frameStart s
    let ended := after .frameStart fading
    fading.report.queue.head? = some (.outcome ⟨0x2000, .released⟩ false) ∧ fading.reportRequest = none ∧
      state (after .grantDecision fading) = 0 ∧ ended.reportRequest = some 0 ∧
      state (after .grantDecision ended) = 4 := by decide +kernel
/-- R52, R182, R184: behind a granted outcome write a refresh is not presented and a fault record is; behind a granted
fault record an outcome write is and a fault record is not; at the head a refresh is, until its sixth burst. -/
theorem test_presented :
    let o (g : Bool) : QueueItem := .outcome ⟨0x1000, .queued⟩ g
    let f (g : Bool) : QueueItem := .fault ⟨.link, true, 0x1000, 1000, 0x30⟩ g
    let r (n : Nat) : QueueItem := .refresh (pageSnapshot showing) n false false
    presented [] 0 false [o true, r 0] = none ∧ presented [] 0 false [o true, f false] = some 1 ∧
      presented [] 0 false [f true, f false] = none ∧ presented [] 0 false [f true, o false] = some 1 ∧
      presented [] 0 false [r 5, o false] = some 0 ∧ presented [] 0 false [r 6, o false] = some 1 ∧
      presented [] 0 false [o false, o false] = some 0 ∧ presented [] 0 false [o true] = none := by decide
theorem test_witness_OutcomeWriteIsPerformedWhole :
    let s := reporting [.outcome ⟨0x1000, .queued⟩ true, .outcome ⟨0x2000, .sceneShown true false false⟩ false]
    (∀ k, k < 16 → (s.tile k).engine.waiting true = false) ∧ s.port.accesses = [] ∧
      s.reportRequest = some 1 ∧
      s.report.queue[1]? = some (.outcome ⟨0x2000, .sceneShown true false false⟩ false) ∧ Memory.wf s.mem = true ∧
      (OutcomeKind.sceneShown true false false).code = 3 ∧ OutcomeKind.queued.code ≠ 3 := by decide
theorem test_witness_OutcomeWriteIsPerformedWhole_released :
    let s := reporting [.outcome ⟨0x1000, .released⟩ false]
    let t := after .grantDecision s
    exec .grantDecision s = .next t ∧ s.report.queue[0]? = some (.outcome ⟨0x1000, .released⟩ false) ∧
      t.report.queue[0]? = some (.outcome ⟨0x1000, .released⟩ true) :=
  ⟨rfl, by decide, by decide +kernel⟩
theorem test_witness_PageWritesStayInTheirBlocks :
    let f : FaultRecord := ⟨.link, true, 0x1000, 1000, 0x30⟩
    let s := reporting [.outcome ⟨0x1000, .queued⟩ true, .fault f false]
    let r (n : Nat) := reporting [.refresh (pageSnapshot showing) n false false]
    let full := reporting (List.replicate 64 (.outcome ⟨128, .queued⟩ true))
    ((∀ k, k < 16 → (s.tile k).engine.waiting true = false) ∧ s.port.accesses = [] ∧
      s.reportRequest = some 1 ∧ s.report.queue[1]? = some (.fault f false) ∧ Memory.wf s.mem = true) ∧
    ((∀ n, n < 6 → (r n).reportRequest = some 0 ∧
      (r n).report.queue[0]? = some (.refresh (pageSnapshot showing) n false false)) ∧
      (pageSnapshot showing).tiles.length = 16 ∧ (pageSnapshot showing).tiles[4 * (4 - 1) + 3]?.isSome = true) ∧
    (showing.ftg.running = true ∧ showing.ftg.begun = false ∧ 0 < (untilRefresh showing).openPlaces) ∧
    (full.ftg.running = true ∧ full.ftg.begun = false ∧ (untilRefresh full).openPlaces = 0) := by
  decide +kernel
theorem test_witness_SharedPlaceAndNonUrgentEngines :
    let s := { showing with commit := { CommitUnit.reset with attempt := some ⟨0x1000, [3], []⟩ } }
    let g := following ⟨.fetching, 0x1000, .record, none, some (.record 0x1000 [] none)⟩
    let l := following ⟨.awaitLink, 0x1000, .record, none, some (.link 0x1000 none)⟩
    let p := adopting false .presented
    let e := showing.updTile 15 (fun t => { t with engine := { t.engine with
      main := { plateLane with words := List.replicate 128 ⟨0, 0⟩ }, active := true } })
    ((∀ k, k < 16 → (s.tile k).engine.waiting true = false) ∧ s.port.accesses = [] ∧
      s.reportRequest = none ∧ s.commit.attempt = some ⟨0x1000, 3 :: [], []⟩) ∧
    (g.plateRequest = none ∧ g.follower.fetch = some (.record 0x1000 [] none)) ∧
    (l.plateRequest = none ∧ l.follower.fetch = some (.link 0x1000 none)) ∧
    ((∀ k, k < 16 → (p.tile k).engine.waiting true = false) ∧ p.port.accesses = [] ∧
      p.reportRequest = none ∧ p.plateRequest = none ∧ p.followerWaits = false ∧
      p.window.adoption = some ⟨false, 0x3000, .presented⟩) ∧
    ((∀ k, k < 16 → (e.tile k).engine.waiting true = false) ∧ e.plateRequest = none ∧ e.followerWaits = false ∧
      e.profileWaits = false ∧ FirstAfter e.arbiter.otherPtr 15 false e ∧ 15 < e.tiles.length) := by
  unfold FirstAfter
  decide +kernel

theorem test_witness_FrameStartAdvancesTheBeat :
    let s (l : List ClockSet) (a : Bool) : State := { showing with ftg := { showing.ftg with clockSets := l, alignPending := a } }
    (s [⟨1001, ⟨1, 2, 3, 4⟩, [64]⟩] true).ftg.running = true ∧
      (s [⟨1001, ⟨1, 2, 3, 4⟩, [64]⟩] true).ftg.clockSets.find? (fun e => e.visible == 1001) =
        some ⟨1001, ⟨1, 2, 3, 4⟩, [64]⟩ ∧
      (∀ e ∈ (s [⟨1002, ⟨1, 2, 3, 4⟩, [64]⟩] true).ftg.clockSets, e.visible ≠ 1001) ∧
      (s [] true).ftg.alignPending = true ∧ (s [] false).ftg.alignPending = false ∧ State.reset.ftg.running = false ∧
      ((Clock.mk 1 2 3 59).increment 60).frame = 0 ∧ ((Clock.mk 1 2 3 28).increment 60).frame = 29 ∧
      ((Clock.mk 1 2 3 29).increment 60).frame = 30 := by decide

/-- AT entries that have waited for the clock set of the frame starting, and for the one of the next frame. -/
theorem test_witness_FrameStartAdvancesTheBeat_at :
    let e (f : Nat) : Entry := { entryOf { sceneCue 0x1000 with mode := .atTime } with clockFrame := some f }
    let s (f : Nat) := queued [e f]
    (∀ f ∈ [1001, 1002], (s f).ftg.running = true ∧ (s f).ftg.begun = false ∧ (e f) ∈ (s f).scheduler.queue ∧
      (e f).cue.mode = .atTime ∧ (e f).target = none ∧ (e f).departing = none ∧ (e f).clockAhead = [] ∧
      (e f).cue.body.isScene = true) ∧
    (∀ f, LookAheadInv (s f)) ∧
    (after .frameStart (s 1001)).scheduler.queue.map (·.target) = [some 2593000] ∧
    (after .frameStart (s 1002)).scheduler.queue.map (·.target) = [none] :=
  ⟨by decide, fun _ => lookAhead_of_no_fetch rfl (Nat.le_of_ble_eq_true rfl) (List.nodup_singleton _), by decide +kernel, by decide +kernel⟩

/-- A tile with a switch and a stop of the frame starting, one whose link action is taken, one outside the profile; and
a frame start that a WAIT_LIMIT_SKIP has taken. -/
theorem test_witness_FrameStartAdvancesTheBeat_tiles :
    let s := (withTile (fun t => { t with
      stopAt := some 1001, switches := [⟨1001, .trim (some 3) none⟩, ⟨1002, .level .dusk⟩] }) showing).updTile 1
        (fun t => { t with link := { t.link with stepped := true } })
    let wait := queued [entryOf { sceneCue 0x1000 with mode := .onTrigger, waitLimit := 1 }]
    (s.ftg.running = true ∧ s.now + 1 = 1001 ∧ s.ftg.begun = false ∧ (s.tile 0).stopAt = some (s.now + 1) ∧
      (s.tile 1).stopAt ≠ some (s.now + 1) ∧ ⟨1002, .level .dusk⟩ ∈ (s.tile 0).switches ∧
      Switch.isScene ⟨1002, .level .dusk⟩ = false ∧ 0 < s.prof.tiles ∧ (s.tile 0).link.stepped = false ∧
      (s.tile 1).link.stepped = true ∧ s.prof.tiles ≤ 15 ∧ 15 < s.tiles.length) ∧
    ((after (.waitLimitSkip 0x1000) wait).ftg.begun = true ∧ (after (.waitLimitSkip 0x1000) wait).ftg.running = true) := by
  decide +kernel

/-- A wait of limit 1 from A = 1000 is met in frame 1001, with one more of the same limit behind it; one of limit 2 is
not; nothing is met while the generator is stopped or in a frame start already taken. -/
theorem test_witness_ExpiredWaitIsSkipped :
    let e (r n : Nat) := entryOf { sceneCue r with mode := .onTrigger, waitLimit := n }
    let s := queued [e 0x1000 1]
    let two := queued [{ e 0x1000 1 with cue := { (e 0x1000 1).cue with body := .mark 1 } }, e 0x2000 2]
    (s.ftg.running = true ∧ s.ftg.begun = false ∧ LookAheadInv s ∧ (beginFrame s).now = s.now + 1 ∧
      (beginFrame s).evals = [⟨e 0x1000 1, .frame 1000, none, none⟩] ∧ (e 0x1000 1).cue.record = 0x1000 ∧
      (e 0x1000 1).cue.mode = .onTrigger ∧ (e 0x1000 1).eventFrame = none ∧ 0 < (e 0x1000 1).cue.waitLimit ∧
      1000 + (e 0x1000 1).cue.waitLimit ≤ s.now + 1 ∧ ¬ (1000 + (e 0x1000 2).cue.waitLimit ≤ s.now + 1)) ∧
    (LookAheadInv two ∧ (∀ x ∈ (beginFrame two).scheduler.queue, x.departing = none) ∧
      (beginFrame two).expiredWaits 1001 = [0x1000] ∧
      ([0x1000] : List Nat).Sublist ((beginFrame two).scheduler.queue.map (·.cue.record))) ∧
    ((beginFrame showing).evals = [] ∧ State.reset.ftg.running = false ∧
      (after (.waitLimitSkip 0x1000) s).ftg.begun = true) :=
  ⟨⟨by decide, by decide, lookAhead_of_no_fetch rfl (by decide) (by decide), by decide +kernel, by decide +kernel,
      by decide, by decide, by decide, by decide, by decide, by decide⟩,
    ⟨lookAhead_of_no_fetch rfl (by decide) (by decide), by decide +kernel, by decide +kernel, by decide +kernel⟩,
    by decide +kernel⟩
/-- A CLOCK wait skipped by its limit: the AT entry behind it has its target fixed from the clock as it stands. -/
theorem test_witness_ExpiredWaitIsSkipped_clock :
    let clock := { entryOf { sceneCue 0x1000 with body := .clock ⟨1, 2, 3, 4⟩, mode := .onTrigger, waitLimit := 1 } with
      eventFrame := none }
    let e := { entryOf { sceneCue 0x2000 with mode := .atTime, atTime := ⟨12, 0, 1, 0⟩ } with clockAhead := [0x1000] }
    let u := beginFrame (queued [clock, e])
    LookAheadInv (queued [clock, e]) ∧ u.expiredWaits 1001 = [0x1000] ∧ u.freePlaces = 64 ∧
      (scheduleAtFrameStart u).scheduler.queue.map (fun x => (x.cue.record, x.clockAhead, x.target)) =
        [(0x2000, [], some 1060)] :=
  ⟨lookAhead_of_no_fetch rfl (by decide) (by decide), by decide +kernel, by decide +kernel, by decide +kernel⟩

theorem test_witness_Due : Due (attempting (entryOf (sceneCue 0x1000)) plate)
    ⟨entryOf (sceneCue 0x1000), .frame 1000, some 1000, some 1003⟩ := by
  unfold Due
  decide

/-- Here and below `dueEval` stands for `Due` (`dueEval_eq_some`, `dueEval_eq_none`). -/
theorem test_witness_ReadySceneCommits :
    let s := attempting (entryOf (sceneCue 0x1000)) plate
    let full : State := { s with
      commit := { s.commit with showing := List.replicate 23 shownEntry }
      tiles := { Tile.reset with switches := List.replicate 15 ⟨1003, .level .dusk⟩ } :: List.replicate 15 .reset }
    (s.commit.attempt = some ⟨0x1000, [], [(3, plate)]⟩ ∧ s.dueEval.isSome = true ∧
      (∀ v, s.dueEval = some v → v.entry = entryOf (sceneCue 0x1000)) ∧
      (∀ x ∈ [(⟨0, 3, 0, 0, none⟩ : Assignment)], (Attempt.plate ⟨0x1000, [], [(3, plate)]⟩ x.plate).isReady = true) ∧
      0 < s.tiles.length) ∧
    (full.dueEval.isSome = true ∧ full.commit.showing.length < 24 ∧
      (full.tile 0).switches.countP (fun sw => sw.frame != full.now) < 16 ∧ showing.ftg.running = true ∧
      showing.ftg.begun = false) :=
  ⟨⟨rfl, by decide, by intro v h; cases h; rfl, by decide, by decide⟩, by decide⟩

/-- A due MARK with one place left in the due list and with none; a due TRIM with one place left in its tile's list and
with none; a due CLOCK. -/
theorem test_witness_ReadySceneCommits_due :
    let s (body : CueBody) (due switches : Nat) : State := { queued [entryOf { sceneCue 0x1000 with body := body }] with
      commit := { CommitUnit.reset with due := List.replicate due dueMark }
      tiles := { Tile.reset with switches := List.replicate switches ⟨1003, .level .dusk⟩ } :: List.replicate 15 .reset }
    let trim : CueBody := .trim [⟨0, some 3, none⟩]
    (∀ u ∈ [s (.mark 7) 15 0, s (.mark 7) 16 0, s trim 0 15, s trim 0 16, s (.clock ⟨1, 2, 3, 4⟩) 15 0],
      u.window.wall = .showing ∧ u.commit.attempt = none ∧ u.dueEval.isSome = true ∧ 8 ≤ u.openPlaces) ∧
    (s (.mark 7) 15 0).commit.due.length < 16 ∧ ¬ ((s (.mark 7) 16 0).commit.due.length < 16) ∧
    ((s trim 0 15).tile 0).switches.countP (fun sw => sw.frame != 1000) < 16 ∧
    ¬ (((s trim 0 16).tile 0).switches.countP (fun sw => sw.frame != 1000) < 16) := by decide

/-- A due CLOCK commits while two AT entries wait, one of them for a later CLOCK too, and the Chain Follower is in FULL. -/
theorem test_witness_ReadySceneCommits_clock :
    let clock (r : Nat) := entryOf { sceneCue r with body := .clock ⟨1, 2, 3, 4⟩ }
    let at0 (r : Nat) (l : List Nat) (f : Option Nat) : Entry :=
      { entryOf { sceneCue r with mode := .atTime } with clockAhead := l, clockFrame := f }
    let q := queued [clock 0x1000, at0 0x1040 [0x1000] (some 1002), clock 0x1080, at0 0x10C0 [0x1000, 0x1080] none]
    let u : State := { q with follower := { Follower.reset with state := .full } }
    let t := attemptRun 1 u
    (u.window.wall = .showing ∧ u.commit.attempt = none ∧ u.dueEval.isSome = true ∧ 8 ≤ u.openPlaces ∧
      u.commit.due.length < 16) ∧
    t.scheduler.queue.map (fun x => (x.cue.record, x.clockAhead, x.clockFrame, x.target)) =
      [(0x1040, [], some 1003, none), (0x1080, [], none, none), (0x10C0, [0x1080], some 1003, none)] ∧
    t.follower.state = .fetching := by decide +kernel

/-- The last entry in AWAIT_LINK, a scene, and a MARK at a frame start, leave by their commits: DRY. -/
theorem test_witness_ReadySceneCommits_dry :
    let f : Follower := ⟨.awaitLink, 0x2000, .link, none, none⟩
    let s := { attempting (entryOf (sceneCue 0x1000)) plate with follower := f }
    let u := { queued [entryOf { sceneCue 0x1000 with body := .mark 7 }] with follower := f }
    (s.dueEval.isSome = true ∧ s.follower.state = .awaitLink ∧ (after .commitDecision s).scheduler.queue = [] ∧
      (after .commitDecision s).flag .dry = true) ∧
    (u.ftg.running = true ∧ u.ftg.begun = false ∧ u.scheduler.queue ≠ [] ∧ (after .frameStart u).scheduler.queue = [] ∧
      (after .frameStart u).flag .dry = true) := by decide +kernel

/-- A due SCENE with exactly 8 open places begins its attempt, plates 5 and 3 to read once each; with 7 the run stops. -/
theorem test_witness_ReadySceneCommits_begins :
    let cue := { sceneCue 0x1000 with body := .scene [⟨0, 5, 0, 0, none⟩, ⟨1, 3, 0, 0, none⟩, ⟨2, 5, 9, 9, none⟩] }
    let s (n : Nat) : State := { queued [entryOf cue] with report := { Report.reset with
      queue := List.replicate n (.outcome ⟨64, .queued⟩ true) } }
    ((s 56).window.wall = .showing ∧ (s 56).commit.attempt = none ∧ (s 56).dueEval.map (·.entry.cue.body) = some cue.body ∧
      8 ≤ (s 56).openPlaces ∧ (attemptRun 2 (s 56)).commit.attempt = some ⟨0x1000, [5, 3], []⟩ ∧
      (attemptRun 2 (s 56)).reservedPlaces = 2) ∧
    ((s 57).openPlaces < 8 ∧ (s 57).openPlaces = 7 ∧ (s 57).dueEval.isSome = true) := by decide
theorem test_witness_UnreadySceneWaitsOrLeaves :
    let e := entryOf (sceneCue 0x1000)
    let bad := attempting e { plate with stride := 49 }
    let spent := attempting { e with slackUsed := 2 } { plate with state := .loading }
    let ready := attempting e plate
    let full : State := { ready with commit := { ready.commit with showing := List.replicate 24 shownEntry } }
    let crowded : State := { ready with
      tiles := { Tile.reset with switches := List.replicate 16 ⟨1003, .level .dusk⟩ } :: List.replicate 15 .reset }
    (bad.dueEval.map (·.entry) = some e ∧ (Attempt.plate ⟨0x1000, [], [(3, { plate with stride := 49 })]⟩ 3).invalid = true) ∧
    (spent.dueEval.map (·.entry.slackUsed) = some 2 ∧ e.slackUsed < e.cue.slack ∧
      (Attempt.plate ⟨0x1000, [], [(3, { plate with state := .loading })]⟩ 3).invalid = false ∧
      (Attempt.plate ⟨0x1000, [], [(3, { plate with state := .loading })]⟩ 3).isReady = false) ∧
    (full.dueEval.isSome = true ∧ (Attempt.plate ⟨0x1000, [], [(3, plate)]⟩ 3).isReady = true ∧
      24 ≤ full.commit.showing.length) ∧
    (crowded.dueEval.isSome = true ∧
      16 ≤ (crowded.tile 0).switches.countP (fun sw => sw.frame != crowded.now)) := by decide

/-- A cue refused BADPLATE and one skipped NOT_READY, with the Chain Follower in FULL and in AWAIT_LINK. -/
theorem test_witness_UnreadySceneWaitsOrLeaves_told :
    let e := entryOf (sceneCue 0x1000)
    let bad := attempting e { plate with stride := 49 }
    let spent := attempting { e with slackUsed := 2 } { plate with state := .loading }
    ∀ s ∈ [bad, spent],
      let full := { s with follower := { Follower.reset with state := .full } }
      let last := { s with follower := { Follower.reset with state := .awaitLink } }
      full.dueEval.isSome = true ∧ last.dueEval.isSome = true ∧
      (after .commitDecision full).follower.state = .fetching ∧ (after .commitDecision full).flag .dry = false ∧
      (after .commitDecision last).scheduler.queue = [] ∧ (after .commitDecision last).flag .dry = true := by decide +kernel

theorem test_witness_FetchBeginsByFourConditions :
    let f : Follower := ⟨.fetching, 64, .record, none, none⟩
    let full := { fullQueue with follower := f }
    let used := { queued [entryOf (sceneCue 64)] with follower := f }
    let busy := { reporting (List.replicate 63 (.outcome ⟨128, .queued⟩ true)) with follower := f }
    (full.follower.state = .fetching ∧ full.follower.fetch = none ∧ 8 ≤ full.scheduler.queue.length) ∧
      (used.scheduler.queue.length < 8 ∧ used.recordInUse 64 = true) ∧
      (busy.recordInUse 64 = false ∧ busy.openPlaces < 2) ∧
      ((following f).recordInUse 64 = false ∧ 2 ≤ (following f).openPlaces) := by decide
theorem test_witness_GoodRecordIsAccepted :
    let ok := framingChecks 0x1000
    (fetched (markRecord 0 7)).follower.fetch = some (.record 0x1000 [] (some (markRecord 0 7))) ∧
      firstFailing (ok (markRecord 0 7)) = none ∧ ¬ (16 < byteAt (markRecord 0 7) 3) ∧
      firstFailing (meaningChecks 2 60 (markRecord 0 7)) = none ∧ leAt (markRecord 0 7) 32 8 = 0 ∧
      leAt (markRecord 0x40 7) 32 8 ≠ 0 ∧
      firstFailing (ok (longRecord.take 128)) = none ∧ byteAt (longRecord.take 128) 2 = 1 ∧
      16 < byteAt (longRecord.take 128) 3 := by decide +kernel

/-- The second request of a SCENE record of 17 words, waiting and granted; an AT record at its latest time of day. -/
theorem test_witness_GoodRecordIsAccepted_second :
    let s (d : Option (List Byte)) : State := { following { state := .fetching, follow := 0x1000, position := .record
                                                            reason := none
                                                            fetch := some (.record 0x1000 (longRecord.take 128) d) } with
      profile := some { sampleProfile with tiles := 16 } }
    let timed := [0xC3, 0x5A, 3, 9, 0, 0, 1, 0] ++ List.replicate 8 0 ++ [(23 : Byte), 59, 59, 59] ++ List.replicate 52 0
    ((s (some (longRecord.drop 128))).prof.tiles = 16 ∧
      firstFailing (meaningChecks 16 60 (longRecord.take 128 ++ longRecord.drop 128)) = none) ∧
    ((s none).follower.fetch = some (.record 0x1000 (longRecord.take 128) none) ∧ longRecord.take 128 ≠ [] ∧
      (∀ k, k < 16 → ((s none).tile k).engine.waiting true = false) ∧ (s none).port.accesses = [] ∧
      (s none).reportRequest = none ∧ (s none).plateRequest = none) ∧
    (firstFailing (framingChecks 0x1000 timed) = none ∧ firstFailing (meaningChecks 2 60 timed) = none) := by
  decide +kernel
/-- An AT record accepted behind a CLOCK entry, a departing one, and two clock sets still to come. -/
theorem test_witness_GoodRecordIsAccepted_clock :
    let timed := [0xC3, 0x5A, 3, 9, 0, 0, 1, 0] ++ List.replicate 8 0 ++ [(23 : Byte), 59, 59, 59] ++ List.replicate 52 0
    let clock (r : Nat) := entryOf { sceneCue r with body := .clock ⟨1, 2, 3, 4⟩ }
    let q := [clock 0x40, { clock 0x80 with departing := some .noTrigger }, entryOf (sceneCue 0xC0)]
    let s : State := { fetched timed with
      scheduler := { showing.scheduler with queue := q }
      ftg := { showing.ftg with clockSets := [⟨1003, ⟨1, 2, 3, 4⟩, [0x100]⟩, ⟨1002, ⟨1, 2, 3, 4⟩, [0x140]⟩] } }
    firstFailing (framingChecks 0x1000 timed) = none ∧ firstFailing (meaningChecks 2 60 timed) = none ∧
      (after .recordWordsArrived s).scheduler.queue[3]?.map
        (fun e => (e.attemptable, e.clockAhead, e.clockFrame, e.target)) = some (false, [0x40], some 1003, none) := by
  decide +kernel
theorem test_witness_BadRecordIsHeldOrRefused :
    let bad := (markRecord 0 7).set 6 4
    firstFailing (framingChecks 0x1FFFFFC0 (markRecord 0 7)) = some (.address, 0) ∧
      firstFailing (framingChecks 0x1000 (markRecord 0x20 7)) = some (.link, 0x20) ∧
      firstFailing (framingChecks 0x1000 bad) = none ∧ ¬ (16 < byteAt bad 3) ∧
      firstFailing (meaningChecks 2 60 bad) = some (.badKind, 6) ∧
      firstFailing (meaningChecks 2 60 (longRecord.take 128 ++ longRecord.drop 128)) = some (.badTile, 0x202) ∧
      (fetched bad).scheduler.queue = [] ∧ (fetched bad).follower.state ≠ .awaitLink := by decide +kernel
theorem test_witness_LinkWordIsJudged :
    let s (w : Word) := following ⟨.awaitLink, 0x1000, .record, none, some (.link 0x1000 (some w))⟩
    (s 0).follower.fetch = some (.link 0x1000 (some 0)) ∧ GoodAddress (0x1FFFFFC0 : Word).toNat ∧
      ¬ GoodAddress (0x20000000 : Word).toNat ∧ (0x20000000 : Word) ≠ 0 := by
  unfold GoodAddress
  decide

/-- AWAIT_LINK at a frame start, with no poll in flight and with one. -/
theorem test_witness_LinkWordIsJudged_poll :
    let s (f : Option Fetch) := following ⟨.awaitLink, 0x1000, .record, none, f⟩
    (∀ f ∈ [none, some (Fetch.link 0x1000 none)], (s f).ftg.running = true ∧ (s f).ftg.begun = false ∧
      (s f).follower.state = .awaitLink) ∧
    (s none).follower.fetch = none ∧ (s (some (.link 0x1000 none))).follower.fetch ≠ none := by decide

/-- The last free place, for a departing entry, for the fault record of a hold and for the hand-off list. -/
theorem test_witness_WaitingWritesAreReceived :
    let full := reporting (List.replicate 63 (.outcome ⟨128, .queued⟩ true))
    let e := { entryOf (sceneCue 0x1000) with departing := some .withdrawn }
    let d : State := { full with
      scheduler := { showing.scheduler with queue := [e] }, follower := { Follower.reset with state := .full } }
    let f : FaultRecord := ⟨.link, true, 0x1000, 1000, 0x30⟩
    let h : State := { full with report := { full.report with holdFaults := [f] } }
    let w : State := { full with commit := { CommitUnit.reset with handoff := [⟨64, .released⟩] } }
    (d.oldestDeparting = some (0x1000, .withdrawn) ∧ 0 < d.freePlaces ∧ d.follower.state = .full ∧
      d.scheduler.queue.length = 1 ∧ (∃ e ∈ d.scheduler.queue, e.departing.isSome = true)) ∧
    (h.report.holdFaults = f :: [] ∧ (∀ e ∈ h.scheduler.queue, e.departing = none) ∧ 0 < h.freePlaces) ∧
    (w.commit.handoff = ⟨64, .released⟩ :: [] ∧ (∀ e ∈ w.scheduler.queue, e.departing = none) ∧
      w.report.holdFaults = [] ∧ 0 < w.freePlaces) := by decide
/-- A departing CLOCK entry leaves: the AT entry that waited for it alone is fixed, one that waits for a clock set too
waits on. -/
theorem test_witness_WaitingWritesAreReceived_clock :
    let clock := { entryOf { sceneCue 0x1000 with body := .clock ⟨1, 2, 3, 4⟩ } with departing := some .noTrigger }
    let e (r : Nat) (f : Option Nat) : Entry := { entryOf { sceneCue r with mode := .atTime, atTime := ⟨12, 0, 1, 0⟩ } with
      clockAhead := [0x1000], clockFrame := f }
    let s := queued [clock, e 0x1040 none, e 0x1080 (some 1000), e 0x10C0 (some 1001)]
    s.oldestDeparting = some (0x1000, .noTrigger) ∧ 0 < s.freePlaces ∧
      (after .departingWriteReceived s).scheduler.queue.map (fun x => (x.clockAhead, x.target)) =
        [([], some 1060), ([], some 1060), ([], none)] := by decide +kernel
theorem test_witness_WritesLandInOrder :
    let f : FaultRecord := ⟨.link, true, 0x1000, 1000, 0x30⟩
    let s : State := { reporting [.outcome ⟨64, .released⟩ true] with follower := ⟨.waitReuse, 64, .record, none, none⟩ }
    (s.report.queue = .outcome ⟨64, .released⟩ true :: [] ∧ (after .outcomeWriteLanded s).report.handback = 1 ∧
      (after .outcomeWriteLanded (reporting [.outcome ⟨64, .queued⟩ true])).report.handback = 0 ∧
      s.follower.state = .waitReuse ∧ s.scheduler.queue = [] ∧ s.commit.handoff = []) ∧
    ((reporting [.fault f true]).report.queue = .fault f true :: [] ∧ f.hold = true ∧ { f with hold := false }.hold = false) ∧
    ((reporting [.refresh (pageSnapshot showing) 6 true true]).report.queue =
      .refresh (pageSnapshot showing) 6 true true :: []) := by decide

theorem test_witness_LinkLossAndJoin :
    let s (st : LinkState) (miss join : Nat) (echoes : List Byte) := withLink (fun l =>
      { l with state := st, startState := st, missRun := miss, joinCount := join, echoes := echoes }) showing
    let lose := s .misfit 2 0 [0]
    let join := s .joining 2 2 [0xE8]
    let back := s .lost 0 0 [0xE8]
    (lose.ftg.running = true ∧ lose.ftg.begun = false ∧ 0 < lose.prof.tiles ∧ 0 < lose.tiles.length ∧
      (lose.tile 0).link.stepped = false ∧ (lose.tile 0).link.state = .misfit ∧
      (lose.tile 0).link.startState = .misfit ∧ BitVec.ofNat 8 lose.now ∉ (lose.tile 0).link.echoes ∧
      lose.prof.grace ≤ (lose.tile 0).link.missRun + 1) ∧
    ((join.tile 0).link.stepped = false ∧ (join.tile 0).link.state = .joining ∧ (join.tile 0).link.startState = .joining ∧
      BitVec.ofNat 8 join.now ∈ (join.tile 0).link.echoes ∧ join.horizon ≤ (join.tile 0).link.joinCount + 1) ∧
    ((s .joining 1 1 []).prof.grace = 3 ∧ ((s .joining 1 1 []).tile 0).link.joinCount + 1 < (s .joining 1 1 []).horizon ∧
      ((s .inStep 1 0 []).tile 0).link.missRun + 1 < (s .inStep 1 0 []).prof.grace ∧
      ((s .inStep 1 0 []).tile 0).link.startState = .inStep) ∧
    ((back.tile 0).link.state = .lost ∧ (back.tile 0).link.startState = .lost ∧
      BitVec.ofNat 8 back.now ∈ (back.tile 0).link.echoes) := by decide
/-- A tile accepted during frame 1000, with a miss behind it and no echo: not judged at the start of frame 1001, judged at
that of 1002 (section 8.4.1). -/
theorem test_witness_LinkLossAndJoin_accepted :
    let s (st : LinkState) := withLink (fun l => { l with
      state := st, startState := .training, joinCount := 2, missRun := 2, missCount := 9 }) showing
    ((s .joining).tile 0).link.stepped = false ∧ ((s .misfit).tile 0).link.startState = .training ∧
      ∀ st ∈ [LinkState.joining, .misfit],
        let t := after .frameStart (s st)
        (t.tile 0).link.state = st ∧ (t.tile 0).link.joinCount = 2 ∧ (t.tile 0).link.missRun = 2 ∧
        (t.tile 0).link.missCount = 9 ∧ ((after .frameStart t).tile 0).link.state = .lost := by decide +kernel
theorem test_witness_TrainingTimerEnds :
    let s (st : LinkState) (n : Nat) := withLink (fun l => { l with state := st, timer := n }) showing
    (s .lost 59).ftg.running = true ∧ (s .lost 59).ftg.begun = false ∧ 0 < (s .lost 59).prof.tiles ∧
      0 < (s .lost 59).tiles.length ∧
      ((s .lost 59).tile 0).link.stepped = false ∧ ((s .lost 59).tile 0).link.state = .lost ∧
      ((s .lost 59).tile 0).link.timer = 59 ∧
      BitVec.ofNat 8 (s .lost 59).now ∉ ((s .lost 59).tile 0).link.echoes ∧
      ((s .absent 59).tile 0).link.state = .absent ∧ ((s .training 29).tile 0).link.state = .training ∧
      ((s .training 29).tile 0).link.timer = 29 ∧ ((s .training 28).tile 0).link.timer < 29 ∧
      ((s .absent 58).tile 0).link.timer < 59 ∧ ((s .lost 58).tile 0).link.timer < 59 := by decide
theorem test_witness_EchoAndDescriptorTaken :
    let s := withLink (fun l => { l with state := .training }) showing
    s.ftg.running = true ∧ 0 < s.prof.tiles ∧ 0 < s.tiles.length ∧ (s.tile 0).link.state = .training ∧
      (PanelDescriptor.mk 64 64 2 0).latency ≤ s.prof.lmax ∧ (64, 64) = s.prof.size 0 ∧
      ¬ ((PanelDescriptor.mk 64 64 3 0).latency ≤ s.prof.lmax) ∧ (showing.tile 0).link.state ≠ .training := by decide
theorem test_witness_LinkTakesTheNextPixel :
    let at' (r c : Nat) (ws : List LaneWord) := withEngine (fun e =>
      { e with sendRow := r, sendCol := c, main := { e.main with words := ws } }) sending
    let black (r c : Nat) := withLink (fun l => { l with blackRow := r, blackCol := c }) showing
    (sending.ftg.running = true ∧ 0 < sending.prof.tiles ∧ 0 < sending.tiles.length ∧
      (sending.tile 0).link.stepped = false) ∧
    ((showing.tile 0).engine.active = false ∧ ((black 63 63).tile 0).link.blackRow < (showing.prof.size 0).2 ∧
      (showing.prof.size 0).1 ≤ ((black 63 63).tile 0).link.blackCol + 1 ∧
      ((black 0 62).tile 0).link.blackCol + 1 < (showing.prof.size 0).1 ∧
      (showing.prof.size 0).2 ≤ ((black 64 0).tile 0).link.blackRow ∧
      (showing.prof.size 0).2 ≤ ((at' 64 0 []).tile 0).engine.sendRow) ∧
    ((sending.tile 0).engine.active = true ∧ (sending.tile 0).engine.sendRow < (sending.prof.size 0).2 ∧
      (sending.tile 0).engine.old = none ∧ (sending.tile 0).engine.main.underran = false ∧
      (sending.tile 0).engine.main.words = [] ∧ 0 < (sending.tile 0).engine.main.content.rIn ∧
      0 < (sending.tile 0).engine.main.content.cIn) ∧
    (((at' 63 63 [⟨63, 7⟩]).tile 0).engine.main.words = ⟨63, 7⟩ :: [] ∧ (sending.prof.size 0).1 ≤ 63 + 1 ∧
      63 < ((at' 63 63 [⟨63, 7⟩]).tile 0).engine.main.content.rIn ∧
      63 < ((at' 63 63 [⟨63, 7⟩]).tile 0).engine.main.content.cIn) ∧
    (¬ (0 < (contentOf (64, 64) plate.snapshot 0 80 none).rIn)) := by decide

/-- A fade with a word in each lane, with the old lane dry and the new one after its underrun, at the row's last pixel. -/
theorem test_witness_LinkTakesTheNextPixel_fade :
    let f : Fade := { old := contentOf (64, 64) plate.snapshot 0 0 none, new := contentOf (64, 64) plate.snapshot 1 0 none
                      n := 4, step := 3, oldCue := some ⟨0x2000, 7⟩ }
    let s (col : Nat) (o m : Lane) := withTile (fun t => { t with
      scan := { t.scan with fade := some f }
      engine := { t.engine with main := m, old := some o, sendCol := col } }) sending
    let word := { plateLane with words := [⟨0, 9⟩] }
    let dry := { plateLane with fetchRow := 1, words := [⟨1, 9⟩] }
    let spent := { plateLane with fetchRow := 1, underran := true, lastPixel := some ⟨7, 8, 9⟩ }
    (∀ u ∈ [s 0 word word, s 62 dry spent, s 63 dry spent, s 63 spent word, s 63 dry dry],
      u.ftg.running = true ∧ 0 < u.prof.tiles ∧ 0 < u.tiles.length ∧ (u.tile 0).link.stepped = false ∧
      (u.tile 0).engine.active = true ∧ (u.tile 0).engine.sendRow < (u.prof.size 0).2 ∧
      (u.tile 0).engine.old.isSome = true ∧ (u.tile 0).scan.fade = some f) ∧
    ((s 63 dry dry).tile 0).engine.old = some dry ∧ dry.underran = false ∧ spent.underran = true ∧
      (∀ l ∈ [word, dry, spent], 0 < l.content.rIn ∧ 63 < l.content.cIn) ∧ (s 63 dry dry).prof.size 0 = (64, 64) := by
  decide

/-- R125, R127: both lanes underrun at one position and the row counts once; the lane spent gives its last pixel. -/
theorem test_linkTakesPixel_fade_underrun :
    let f : Fade := { old := contentOf (64, 64) plate.snapshot 0 0 none, new := contentOf (64, 64) plate.snapshot 1 0 none
                      n := 2, step := 1, oldCue := some ⟨0x2000, 7⟩ }
    let s (o m : Lane) := withTile (fun t => { t with
      scan := { t.scan with fade := some f }, engine := { t.engine with main := m, old := some o } }) sending
    let spent := { plateLane with fetchRow := 1, underran := true, lastPixel := some ⟨7, 8, 10⟩ }
    let both := ((after (.linkTakesPixel 0) (s plateLane plateLane)).tile 0).engine
    let one := (after (.linkTakesPixel 0) (s plateLane spent)).tile 0
    both.underruns = 1 ∧ both.main.underran = true ∧ both.old.map (·.underran) = some true ∧
      one.engine.underruns = 0 ∧ one.link.sent = some ⟨4, 5, 7⟩ := by decide
theorem test_witness_BurstWordsJoinTheirLane :
    let s := withEngine (fun e => { e with
      old := some .empty, flight := [⟨.old, 0, [5], true⟩, ⟨.main, 0, [5, 6], false⟩] }) sending
    0 < s.tiles.length ∧ (s.tile 0).engine.flight[(Arrival.mk 1 1).burst]? = some ⟨.main, 0, [5, 6], false⟩ ∧
      (Arrival.mk 1 1).count < [(5 : Word), 6].length ∧ [(5 : Word), 6].length ≤ (Arrival.mk 1 2).count ∧
      (s.tile 0).engine.flight[0]? = some ⟨.old, 0, [5], true⟩ ∧ (s.tile 0).engine.old.isSome = true := by decide
/-- R118: words of a stale burst of the old lane that arrive after the fade has ended are discarded. -/
theorem test_burstArrival_stale_old :
    let s := withEngine (fun e => { e with flight := [⟨.old, 0, [5, 6], true⟩] }) sending
    let e := ((after (.burstArrival 0 ⟨0, 2⟩) s).tile 0).engine
    (s.tile 0).engine.old = none ∧ e.flight = [] ∧ e.main = (s.tile 0).engine.main ∧ e.old = none := by decide

/-- R67 at its edge, A − H = now and one frame short of it; A from the anchor, a dwell end and an open dwell; not armed
behind another entry, or with its event come. -/
theorem test_witness_Armed :
    let e := entryOf { sceneCue 64 with mode := .onTrigger }
    let s (anchor : Nat) (l : Option LastScene) : State := { showing with scheduler := { showing.scheduler with
      queue := [e], anchor := anchor, lastScene := l } }
    let last (v : Nat) (d : Option Nat) : Option LastScene := some ⟨⟨0x2000, 7⟩, v, 0, d, true⟩
    Armed .onTrigger (s 1003 none) e ∧ ¬ Armed .onTrigger (s 1004 none) e ∧
      Armed .onTrigger (s 0 (last 990 (some 1003))) e ∧ ¬ Armed .onTrigger (s 0 (last 990 (some 1004))) e ∧
      Armed .onTrigger (s 0 (last 1003 none)) e ∧ ¬ Armed .onPulse (s 1003 none) e ∧
      ¬ Armed .onTrigger (queued [entryOf (sceneCue 128), e]) e ∧
      ¬ Armed .onTrigger (queued [{ e with eventFrame := some 1004 }]) { e with eventFrame := some 1004 } := by
  unfold Armed
  decide

/-- Here and below `armedFor` stands for `Armed` (`armedFor_eq_some`). -/
theorem test_witness_EventInputsAreFiltered :
    (showing.pins.level .trigger = false ∧ showing.ftg.running = true ∧ showing.ftg.filter .trigger = .idle ∧
      0 < showing.prof.filterWidth .trigger) ∧
    (showing.pins.level .pulse = false ∧ showing.prof.filterWidth .pulse = 0 ∧ showing.prof.pulseAlign = true) ∧
    (State.reset.pins.level .trigger = false ∧ State.reset.ftg.running = false) ∧
    (let e := entryOf { sceneCue 64 with mode := .onPulse }
     (queued [e]).window.wall = .showing ∧ (queued [e]).armedFor .onPulse = some e ∧
      (queued [e]).prof.filterWidth .pulse = 0 ∧ (queued [e]).pins.level .pulse = false) := by decide
/-- R72: an event accepted at once resolves its armed entry as any accepted event does. -/
theorem test_eventInputActive_resolves :
    (after (.eventInputActive .pulse) (queued [entryOf { sceneCue 64 with mode := .onPulse }])).scheduler.queue.map
      (·.eventFrame) = [some 1004] := by decide
theorem test_witness_AcceptedEventsActOnTheQueue :
    let s (t : State) : State := { t with
      pins := ⟨true, true⟩, ftg := { t.ftg with trigger := .qualifying 40, pulse := .qualifying 40 } }
    let wait (m : StartMode) := s (queued [entryOf { sceneCue 64 with mode := m }])
    ((wait .onTrigger).ftg.running = true ∧ (wait .onTrigger).pins.level .trigger = true ∧
      (wait .onTrigger).ftg.filter .trigger = .qualifying 40 ∧ (wait .onTrigger).window.wall = .showing ∧
      ((wait .onTrigger).armedFor .onTrigger).isSome = true ∧ ((wait .onPulse).armedFor .onPulse).isSome = true) ∧
    ((s lengthenable).armedFor .onTrigger = none ∧ (s lengthenable).window.wall = .showing ∧
      (s lengthenable).scheduler.lastScene = some ⟨⟨0x2000, 7⟩, 990, 250, some 1250, true⟩ ∧
      990 ≤ (s lengthenable).now ∧ shownEntry ∈ (s lengthenable).commit.showing) ∧
    ((s showing).armedFor .onTrigger = none ∧ (s showing).armedFor .onPulse = none ∧
      (s showing).scheduler.lastScene = none) ∧
    ((s standby).ftg.filter .trigger = .qualifying 40 ∧ (s standby).window.wall ≠ .showing) := by decide
theorem test_witness_ReadingsDecideTheLevelSet :
    let s (c : Nat) : State := { showing with ambient := { showing.ambient with inFlight := some 0, confirm := c } }
    (showing.ambient.polling = true ∧ showing.ambient.inFlight = none) ∧
    ((s 2).ambient.inFlight.isSome = true ∧ (s 2).prof.ambientMode = .auto ∧ (s 2).ambient.status ≠ .fault ∧
      (s 2).ambient.level = .street ∧ ¬ ((2500 + 2500 + 2500 + 1000) / 4 ≤ (s 2).prof.downThreshold) ∧
      (0 + 0 + 0 + 4800) / 4 ≤ (s 2).prof.downThreshold ∧ (s 1).ambient.confirm + 1 < (s 1).prof.confirm ∧
      (s 2).prof.confirm ≤ (s 2).ambient.confirm + 1) := by decide

/-- 15 and 16 switches to come in tile 0's list, at a reading, at a reading in a forced mode, and at a frame start with
a request waiting. -/
theorem test_witness_ReadingsDecideTheLevelSet_room :
    let s (n f : Nat) : State := withTile (fun t => { t with switches := List.replicate n ⟨f, .level .dusk⟩ }) { showing with
      ambient := { showing.ambient with inFlight := some 0, confirm := 2 }
      commit := { CommitUnit.reset with levelRequest := some ⟨.dusk, 1003⟩ } }
    let forced (m : AmbientMode) : State := { s 0 1003 with profile := some { sampleProfile with ambientMode := m } }
    (∀ k, k < (s 15 1003).prof.tiles → ((s 15 1003).tile k).switches.countP (fun sw => sw.frame != (s 15 1003).now) < 16) ∧
    (16 ≤ ((s 16 1003).tile 0).switches.countP (fun sw => sw.frame != (s 16 1003).now)) ∧
    (∀ m ∈ [AmbientMode.forceStreet, .forceDusk], (forced m).ambient.inFlight.isSome = true ∧
      (forced m).prof.ambientMode ≠ .auto ∧ (forced m).ambient.status ≠ .fault) ∧
    (∀ u ∈ [s 15 1002, s 16 1001, s 16 1002], u.ftg.running = true ∧ u.ftg.begun = false ∧
      u.commit.levelRequest = some ⟨.dusk, 1003⟩ ∧ (u.tile 0).stopAt ≠ some (u.now + 1) ∧
      ∀ sw ∈ (u.tile 0).switches, sw.isScene = false) ∧
    (∀ u ∈ [s 15 1002, s 16 1001], ∀ k, k < u.prof.tiles →
      (u.tile k).switches.countP (fun sw => sw.frame != u.now + 1) < 16) ∧
    (16 ≤ ((s 16 1002).tile 0).switches.countP (fun sw => sw.frame != (s 16 1002).now + 1) ∧
      0 < (s 16 1002).prof.tiles) := by decide
theorem test_frameStart_levelRequest :
    let s (n : Nat) : State := withTile (fun t => { t with switches := List.replicate n ⟨1002, .level .street⟩ }) { showing with
      commit := { CommitUnit.reset with levelRequest := some ⟨.dusk, 1003⟩ } }
    (after .frameStart (s 16)).commit.levelRequest = some ⟨.dusk, 1004⟩ ∧
      (after .frameStart (s 15)).commit.levelRequest = none ∧
      ((after .frameStart (s 15)).tile 1).switches = [⟨1002, .level .dusk⟩] := by decide +kernel
theorem test_witness_SensorFaultsBeginAndEnd :
    let s (st : SensorStatus) (n : Nat) : State :=
      { showing with ambient := { showing.ambient with inFlight := some 0, status := st, failures := n } }
    (s .fault 8).ambient.inFlight.isSome = true ∧ (s .fault 8).ambient.status = .fault ∧
      (s .good 6).ambient.status ≠ .fault ∧ (s .good 6).ambient.failures + 1 < 8 ∧
      8 ≤ (s .noReading 7).ambient.failures + 1 ∧ (s .fault 8).prof.ambientMode = .auto ∧
      (s .fault 8).prof.confirm = 3 := by decide
/-- R156: a dark reading that ends a fault is the first of K; with K = 1 it changes the state at once. -/
theorem test_sensorReading_ends_fault :
    let s (k : Nat) : State := { showing with
      profile := some { sampleProfile with confirm := k }
      ambient := { showing.ambient with inFlight := some 0, status := .fault, failures := 8, confirm := 0 } }
    let t (k : Nat) := after (.sensorReading 62 128) (s k)
    (t 3).ambient.history = [1000, 1000, 1000, 1000] ∧ (t 3).ambient.confirm = 1 ∧ (t 3).ambient.level = .street ∧
      (t 3).flag .ambient = true ∧ (t 1).ambient.level = .dusk ∧ (t 1).ambient.confirm = 0 := by decide
theorem test_witness_ByteWritesCarryTheJob :
    let s (k : JobKind) (r : Result) (l : List (Nat × Byte)) : State := { standby with
      window := { standby.window with main := some ⟨if k = .invalidate then 7 else 1, r⟩ }
      store := { standby.store with eeprom := [9, 9], image := [some 9, some 9], job := some ⟨k, l⟩ } }
    (s .trim .done [(0, 1), (1, 2)]).store.job = some ⟨.trim, (0, 1) :: [(1, 2)]⟩ ∧
      (s .invalidate .busy [(0, 0)]).store.job = some ⟨.invalidate, (0, 0) :: []⟩ ∧
      (s .invalidate .busy [(0, 0)]).window.main = some ⟨7, .busy⟩ ∧
      (s .profile .busy [(0, 0)]).window.main = some ⟨1, .busy⟩ ∧ 0 < (s .profile .busy [(0, 0)]).store.eeprom.length ∧
      0 < (s .trim .done [(0, 1)]).store.image.length := by decide

/-- A PERSIST TRIM cue due in the frame starting: its image valid and to change, valid and to stay, not valid, and the
slot taken. -/
theorem test_witness_ByteWritesCarryTheJob_trim :
    let entries : List TrimEntry := [⟨0, some 3, none⟩, ⟨15, some 4, some 31⟩]
    let d (l : List TrimEntry) : DueEntry := { dueMark with body := .trim l, persist := true }
    let s (l : List TrimEntry) (valid : Bool) (job : Option Job) : State := { showing with
      store := { showing.store with image := sampleImage.map some, valid := valid, job := job }
      commit := { CommitUnit.reset with due := [d l, { dueMark with pass := 10 }] } }
    let same : List TrimEntry := [⟨0, some 16, none⟩]
    (∀ l ∈ [entries, same], ∀ valid ∈ [true, false],
      (s l valid none).ftg.running = true ∧ (s l valid none).ftg.begun = false ∧ (s l valid none).store.job = none ∧
      (s l valid none).commit.due.filter (fun x => x.visible == (s l valid none).now + 1 && x.persist &&
        (match x.body with | .trim _ => true | .scene _ | .clock _ | .mark _ => false)) = [d l]) ∧
    contentWrites (s entries true none).store.image (trimContent (s entries true none).store.image entries) ≠ [] ∧
    contentWrites (s same true none).store.image (trimContent (s same true none).store.image same) = [] ∧
    (s entries true (some ⟨.profile, [(1, 9)]⟩)).store.job.isSome = true ∧
    ((sampleImage.map some).length = 512 ∧ (entries.map (·.tile)).Nodup ∧ ∀ e ∈ entries, e.tile < 16) := by
  decide +kernel

end Sys2Proof.Tests
end

section
/-! The show clock's increment at a frame start (R5) and the registers FRAME_LO, FRAME_HI and ARG (R8, R9, R175). -/

namespace Sys2Proof.Machine

/-! ## The increment of the show clock (R5) -/

theorem bumpField_of_lt {top old : Nat} (h : old < top) : bumpField top old = (old + 1, false) := if_pos h

theorem bumpField_of_top_le {top old : Nat} (h : top ≤ old) : bumpField top old = (0, true) := if_neg (by omega)

section
variable {c : Clock}

theorem Clock.bumpSeconds_of_seconds_lt (hs : c.seconds < 59) : c.bumpSeconds = { c with seconds := c.seconds + 1 } := by
  simp [Clock.bumpSeconds, bumpField_of_lt hs]

theorem Clock.bumpSeconds_of_minutes_lt (hs : 59 ≤ c.seconds) (hm : c.minutes < 59) :
    c.bumpSeconds = { c with seconds := 0, minutes := c.minutes + 1 } := by
  simp [Clock.bumpSeconds, bumpField_of_top_le hs, bumpField_of_lt hm]

theorem Clock.bumpSeconds_of_hours_lt (hs : 59 ≤ c.seconds) (hm : 59 ≤ c.minutes) (hh : c.hours < 23) :
    c.bumpSeconds = { c with seconds := 0, minutes := 0, hours := c.hours + 1 } := by
  simp [Clock.bumpSeconds, bumpField_of_top_le hs, bumpField_of_top_le hm, bumpField_of_lt hh]

/-- A carry out of hours ends: the day begins again. -/
theorem Clock.bumpSeconds_of_hours_top (hs : 59 ≤ c.seconds) (hm : 59 ≤ c.minutes) (hh : 23 ≤ c.hours) :
    c.bumpSeconds = { c with seconds := 0, minutes := 0, hours := 0 } := by
  simp [Clock.bumpSeconds, bumpField_of_top_le hs, bumpField_of_top_le hm, bumpField_of_top_le hh]

variable {rate : Nat}

theorem Clock.increment_of_frame_lt (hf : c.frame < rate - 1) :
    c.increment rate = { c with frame := c.frame + 1 } := by
  simp [Clock.increment, bumpField_of_lt hf]

/-- The frame field at its top carries into seconds. -/
theorem Clock.increment_of_frame_top (hf : rate - 1 ≤ c.frame) :
    c.increment rate = { c.bumpSeconds with frame := 0 } := by
  simp [Clock.increment, bumpField_of_top_le hf]

theorem Clock.increment_frame_lt (h : 1 ≤ rate) : (c.increment rate).frame < rate := by
  rcases Nat.lt_or_ge c.frame (rate - 1) with hf | hf
  · rw [Clock.increment_of_frame_lt hf]
    show c.frame + 1 < rate
    omega
  · rw [Clock.increment_of_frame_top hf]
    exact h

end

/-! ## The Frame Timing Generator over a frame start -/

/-- A cue committed to the due list changes the Frame Timing Generator's list of clock sets alone (R88). -/
theorem commitDue_ftg (v : Eval) (visible : Nat) (s : State) :
    ∃ sets, (commitDue v visible s).ftg = { s.ftg with clockSets := sets } := by
  have placed : ∀ (c : Cue) (u : State), ∃ sets, (placeDue c visible u).ftg = { u.ftg with clockSets := sets } := by
    intro c u
    unfold placeDue
    split
    case h_1 entries _ =>
      exact ⟨_, (onlyIn_foldl (ps := [.tiles]) _ (fun w x => onlyIn_placeSwitch _ _ _ w) entries u).ftg⟩
    case h_2 value _ => exact ⟨_, (onlyIn_clockCommitted _ _ _).ftg⟩
    case h_3 => exact ⟨_, rfl⟩
    case h_4 => exact ⟨_, rfl⟩
  obtain ⟨sets, h⟩ := placed v.entry.cue _
  exact ⟨sets, (onlyIn_leaveCommitted _ _ _).ftg.trans h⟩

/-- The run of attempts changes the Frame Timing Generator's list of clock sets alone (R78, R88). -/
theorem attemptRun_ftg (n : Nat) (s : State) :
    ∃ sets, (attemptRun n s).ftg = { s.ftg with clockSets := sets } := by
  induction n generalizing s with
  | zero => exact ⟨_, rfl⟩
  | succ n ih =>
    have committed (v : Eval) (visible : Nat) :
        ∃ sets, (attemptRun n (commitDue v visible s)).ftg = { s.ftg with clockSets := sets } := by
      obtain ⟨_, h⟩ := commitDue_ftg v visible s
      obtain ⟨sets, h'⟩ := ih (commitDue v visible s)
      exact ⟨sets, by rw [h', h]⟩
    unfold attemptRun
    (repeat' split) <;> first
      | exact ⟨_, rfl⟩
      | exact committed _ _

/-- From links to refresh a frame start acts on the Frame Timing Generator by its advance alone (R2). -/
theorem untilRefresh_ftg (s : State) : (untilRefresh s).ftg = s.ftg.advance s.prof.rate := by
  have links := onlyIn_linksAtFrameStart s
  have advanced : (advanceFtg (linksAtFrameStart s)).ftg = s.ftg.advance s.prof.rate := by
    simp only [advanceFtg, State.setFtg_ftg, State.prof, links.ftg, links.profile]
  have begun : (beginFrame s).ftg = s.ftg.advance s.prof.rate := by
    rw [beginFrame, (onlyIn_receiveWaiting _).ftg, (onlyIn_endAttempt _).ftg, advanced]
  rw [untilRefresh, (onlyIn_prepareEngines _).ftg, (onlyIn_retryLevelRequest _).ftg,
    (onlyIn_completeAtFrameStart _).ftg, (onlyIn_scanAtFrameStart _).ftg, (onlyIn_scheduleAtFrameStart _).ftg, begun]

/-- A whole frame start advances the Frame Timing Generator; the run of attempts may then add clock sets (R2, R88). -/
theorem wholeFrameStart_ftg (s : State) :
    ∃ sets, (wholeFrameStart s).ftg = { s.ftg.advance s.prof.rate with clockSets := sets } := by
  have marked : (markAttemptable (takeRefresh (untilRefresh s))).ftg = s.ftg.advance s.prof.rate := by
    rw [markAttemptable, (onlyIn_mapQueue _ _).ftg, (onlyIn_takeRefresh _).ftg, untilRefresh_ftg]
  simp only [wholeFrameStart, (onlyIn_pollLink _).ftg]
  rw [← marked]
  exact attemptRun_ftg _ _

/-- With no clock set of the coming frame and no alignment pending, the advance increments the clock (R5). -/
theorem Ftg.advance_clock_of_untouched {f : Ftg} (rate : Nat) (noSet : ∀ e ∈ f.clockSets, e.visible ≠ f.frame + 1)
    (noAlign : f.alignPending = false) : (f.advance rate).clock = f.clock.increment rate := by
  have none_found : f.clockSets.find? (fun e => e.visible == f.frame + 1) = none := by simpa using noSet
  simp [Ftg.advance, none_found, noAlign]

theorem exec_frameStart (s : State) : exec .frameStart s = .next (dryEdge s (frameStart s)) := rfl

/-- Settles O14: the clock of a frame start is the advance's, and the increment goes field by field up to the first one
below its top. -/
theorem showClockIncrementCarries : Obligations.ShowClockIncrementCarries := by
  refine ⟨fun s running notBegun noSet noAlign => ?_, fun rate c positive => ?_⟩
  · refine ⟨_, exec_frameStart s, ?_⟩
    obtain ⟨sets, whole⟩ := wholeFrameStart_ftg s
    rw [(onlyIn_dryEdge_after _ _).ftg, frameStart_of_not_begun running notBegun, whole]
    exact Ftg.advance_clock_of_untouched _ noSet noAlign
  · refine ⟨Clock.increment_of_frame_lt, fun hf hs => ?_, fun hf hs hm => ?_, fun hf hs hm hh => ?_,
      fun hf hs hm hh => ?_, Clock.increment_frame_lt positive⟩
    · rw [Clock.increment_of_frame_top hf, Clock.bumpSeconds_of_seconds_lt hs]
    · rw [Clock.increment_of_frame_top hf, Clock.bumpSeconds_of_minutes_lt hs hm]
    · rw [Clock.increment_of_frame_top hf, Clock.bumpSeconds_of_hours_lt hs hm hh]
    · rw [Clock.increment_of_frame_top hf, Clock.bumpSeconds_of_hours_top hs hm hh]

/-! ## The frame and ARG registers (R8, R9, R175) -/

theorem State.readRegister_argLow (s : State) : s.readRegister 0x08 = s.window.arg.extractLsb' 0 32 := rfl

theorem State.readRegister_argHigh (s : State) : s.readRegister 0x0C = s.window.arg.extractLsb' 32 32 := rfl

theorem State.readRegister_frameHi (s : State) : s.readRegister 0x1C = s.ftg.latch.zeroExtend 32 := rfl

/-- Bits 0..31 and the latched bits 32..47 of a 48-bit frame number make up that number. -/
theorem latched_mul_add_low {n : Nat} (h : n < 2 ^ 48) :
    ((BitVec.ofNat 16 (n / 2 ^ 32)).zeroExtend 32).toNat * 2 ^ 32 + (BitVec.ofNat 32 n).toNat = n := by
  simp only [BitVec.truncate_eq_setWidth, BitVec.toNat_setWidth, BitVec.toNat_ofNat]
  omega

theorem writeArg_low (target : RegisterTarget) (v arg : BitVec 64) :
    (writeArg target v arg).extractLsb' 0 32 =
      if target = .argLow ∨ target = .argWhole then v.extractLsb' 0 32 else arg.extractLsb' 0 32 := by
  cases target with
  | argLow => exact BitVec.extractLsb'_append_eq_right
  | argHigh => exact BitVec.extractLsb'_append_eq_right
  | argWhole | frameLo | frameHi | empty => simp [writeArg]

theorem writeArg_high (target : RegisterTarget) (v arg : BitVec 64) :
    (writeArg target v arg).extractLsb' 32 32 =
      if target = .argHigh then v.extractLsb' 0 32
      else if target = .argWhole then v.extractLsb' 32 32 else arg.extractLsb' 32 32 := by
  cases target with
  | argLow => exact BitVec.extractLsb'_append_eq_left
  | argHigh => exact BitVec.extractLsb'_append_eq_left
  | argWhole | frameLo | frameHi | empty => simp [writeArg]

theorem exec_frameLoRead (s : State) :
    exec .frameLoRead s = .next ((s.setWindow { s.window with readData := BitVec.ofNat 32 s.now }).setFtg
      { s.ftg with latch := BitVec.ofNat 16 (s.now / 2 ^ 32) }) := rfl

theorem exec_registerWrite (target : RegisterTarget) (v : BitVec 64) (s : State) :
    exec (.registerWrite target v) s =
      .next (s.setWindow { s.window with arg := writeArg target v s.window.arg }) := rfl

/-- Settles O34: FRAME_LO and the latch split one frame number, and a write acts on ARG's halves alone. -/
theorem frameAndArgRegisters : Obligations.FrameAndArgRegisters := by
  refine ⟨fun s bound => ?_, fun target v s => ?_⟩
  · exact ⟨_, exec_frameLoRead s, (onlyIn_setWindow s _).comp (onlyIn_setFtg _ _), rfl, rfl,
      latched_mul_add_low bound⟩
  · exact ⟨_, exec_registerWrite target v s, onlyIn_setWindow s _, rfl, writeArg_low target v s.window.arg,
      writeArg_high target v s.window.arg⟩

end Sys2Proof.Machine
end

section
/-! Plate-table entries: the geometry checks of a LOADING or READY entry and what each state code makes of them (R18 to
R20). -/

namespace Sys2Proof.Machine

/-! ## What each state code makes of the geometry checks (R19) -/

section

variable {e : PlateEntry}

theorem PlateEntry.invalid_of_loading (h : e.state = .loading) : e.invalid = !e.fits := by
  simp [PlateEntry.invalid, h]

theorem PlateEntry.invalid_of_ready (h : e.state = .ready) : e.invalid = !e.fits := by
  simp [PlateEntry.invalid, h]

theorem PlateEntry.invalid_of_empty (h : e.state = .empty) : e.invalid = false := by
  simp [PlateEntry.invalid, h]

theorem PlateEntry.invalid_of_other (h : e.state = .other) : e.invalid = true := by
  simp [PlateEntry.invalid, h]

theorem PlateEntry.isReady_of_ready (h : e.state = .ready) : e.isReady = e.fits := by
  simp [PlateEntry.isReady, h]

theorem PlateEntry.isReady_of_ne_ready (h : e.state ≠ .ready) : e.isReady = false := by
  unfold PlateEntry.isReady
  split
  case h_1 ready => exact absurd ready h
  all_goals rfl

/-- Only a LOADING or READY entry is checked, and the checks alone decide whether it is valid. -/
theorem PlateEntry.invalid_eq_false_iff_fits (h : e.state = .loading ∨ e.state = .ready) :
    e.invalid = false ↔ e.fits = true := by
  have checked : e.invalid = !e.fits := h.elim invalid_of_loading invalid_of_ready
  rw [checked, Bool.not_eq_false']

end

/-! ## The geometry checks (R20) -/

/-- A row of `width` pixels, two to a word, fits a stride in words when twice the stride reaches the width. -/
theorem rowWords_le_stride_iff (width stride : Nat) : (width + 1) / 2 ≤ stride ↔ width ≤ 2 * stride := by
  omega

/-- The checks as the manual gives them, the base without its three lowest bits (R18). -/
theorem PlateEntry.fits_iff (e : PlateEntry) :
    e.fits = true ↔ 1 ≤ e.stride ∧ (1 ≤ e.width ∧ e.width ≤ 4096) ∧ (1 ≤ e.height ∧ e.height ≤ 4096) ∧
      e.width ≤ 2 * e.stride ∧ (e.base - e.base % 8) + e.height * e.stride * 8 ≤ 0x20000000 := by
  rw [PlateEntry.fits, decide_eq_true_iff, rowWords_le_stride_iff, Nat.mul_div_self_eq_mod_sub_self,
    Config.showBytes]
  simp only [and_assoc]

/-- Settles O16: the state code says whether the geometry checks apply, and those are the five conditions of R20. -/
theorem plateEntryValidity : Obligations.PlateEntryValidity := by
  intro e
  refine ⟨fun checked => ?_, fun empty => ⟨?_, ?_⟩, PlateEntry.invalid_of_other, fun ready => ?_, fun loading => ?_⟩
  · exact (PlateEntry.invalid_eq_false_iff_fits checked).trans e.fits_iff
  · exact PlateEntry.invalid_of_empty empty
  · exact PlateEntry.isReady_of_ne_ready (by simp [empty])
  · rw [PlateEntry.isReady_of_ready ready, PlateEntry.invalid_of_ready ready, Bool.not_not]
  · exact PlateEntry.isReady_of_ne_ready (by simp [loading])

end Sys2Proof.Machine
end

section
/-! The level stage of a tile: saturation, unity gain, and the formula of the level set in effect (R109 to R112). -/

namespace Sys2Proof.Machine

/-! ## The two formulas (R110, R111) -/

theorem gain_unity : gain 16 = 256 := rfl

theorem streetOut_le (g m : Nat) : streetOut g m ≤ 255 := Nat.min_le_left _ _

theorem duskOut_le (g d m : Nat) : duskOut g d m ≤ 255 := Nat.min_le_left _ _

theorem streetOut_unity {m : Nat} (component : m ≤ 255) : streetOut 256 m = m := by
  have unscaled : (m * 256 + 128) / 256 = m := by omega
  rw [streetOut, unscaled, Nat.min_eq_right component]

/-- A dusk scale of 256 leaves the level to the trim alone (R111). -/
theorem duskOut_fullScale (g m : Nat) : duskOut g 256 m = streetOut g m := by
  have rescaled : (m * g * 256 + 32768) / 65536 = (m * g + 128) / 256 := by omega
  rw [duskOut, streetOut, rescaled]

/-! ## The set in effect chooses the formula and the code (R109) -/

section
variable {c : Scan}

theorem Scan.level_street (street : c.set = .street) (d m : Nat) : c.level d m = streetOut (gain c.street) m := by
  rw [Scan.level, street]

theorem Scan.level_dusk (dusk : c.set = .dusk) (d m : Nat) : c.level d m = duskOut (gain c.dusk) d m := by
  rw [Scan.level, dusk]

/-- Every output is a component (R112). -/
theorem Scan.level_le (c : Scan) (d m : Nat) : c.level d m ≤ 255 := by
  cases set : c.set with
  | street => exact (Scan.level_street set d m).trans_le (streetOut_le _ _)
  | dusk => exact (Scan.level_dusk set d m).trans_le (duskOut_le _ _ _)

end

/-- Settles O19: each set gives its formula with the gain of its own code, both saturate, and code 16 is unity gain. -/
theorem levelStageScalesAndSaturates : Obligations.LevelStageScalesAndSaturates := by
  intro c m d component
  refine ⟨c.level_le d m, fun street => ?_, fun dusk => ?_, fun street code => ?_, fun dusk code full => ?_⟩
  · rw [Scan.level_street street, streetOut, gain]
  · rw [Scan.level_dusk dusk, duskOut, gain]
  · rw [Scan.level_street street, code, gain_unity, streetOut_unity component]
  · rw [Scan.level_dusk dusk, code, gain_unity, full, duskOut_fullScale, streetOut_unity component]

end Sys2Proof.Machine
end

section
/-! The interrupt message (R181): a command other than a write to ATTN or ATTN_MASK, a device reset or a change of message
signalling only raises causes, one after another. However many it raises, the set of flags both set and enabled only
grows, so at most one of them sends the message. -/

set_option Elab.async false

namespace Sys2Proof.Machine

/-! ## What the message depends on -/

/-- The messages R181 asks for between two register windows: one when the set of flags both set and enabled goes from
empty to not empty with message signalling enabled. -/
def Window.onsets (w v : Window) : Nat :=
  if w.attending = false ∧ v.attending = true ∧ v.signalling = true then 1 else 0

theorem Window.onsets_of_before {w : Window} (h : w.attending = true) (v : Window) : w.onsets v = 0 := by
  simp [Window.onsets, h]

theorem Window.onsets_of_after {v : Window} (h : v.attending = false) (w : Window) : w.onsets v = 0 := by
  simp [Window.onsets, h]

theorem Window.onsets_of_attending_eq {w v : Window} (h : v.attending = w.attending) : w.onsets v = 0 := by
  cases after : v.attending with
  | false => exact Window.onsets_of_after after w
  | true => exact Window.onsets_of_before (h.symm.trans after) v

@[simp] theorem Window.attending_signal (w v : Window) : (w.signal v).attending = v.attending := by
  simp [Window.attending]

@[simp] theorem Window.onsets_signal (w v : Window) : w.onsets (w.signal v) = w.onsets v := by
  simp [Window.onsets]

theorem Window.signal_messages (w v : Window) : (w.signal v).messages = v.messages + w.onsets v := by
  have sends : (!w.attending && v.attending && v.signalling) = true ↔
      w.attending = false ∧ v.attending = true ∧ v.signalling = true := by
    simp [and_assoc]
  simp only [Window.signal, Window.onsets, sends]
  split <;> rfl

/-- Setting flags, with the mask as it is, empties no set of flags both set and enabled. -/
theorem Window.attending_of_attn_kept {w v : Window} (attn : w.attn &&& v.attn = w.attn) (mask : v.mask = w.mask)
    (before : w.attending = true) : v.attending = true := by
  simp only [Window.attending, decide_eq_true_eq] at before ⊢
  intro empty
  apply before
  rw [← attn, ← mask, BitVec.and_assoc, empty]
  exact BitVec.and_zero

/-! ## The relation -/

/-- Attention changes from `s` to `t` by raised causes alone (R180, R181): no flag is cleared, mask and message signalling
stay, and the messages are those of one change from `s` to `t`. -/
structure AttentionRises (s t : State) : Prop where
  attn       : s.window.attn &&& t.window.attn = s.window.attn
  mask       : t.window.mask = s.window.mask
  signalling : t.window.signalling = s.window.signalling
  messages   : t.window.messages = s.window.messages + s.window.onsets t.window

theorem AttentionRises.attending {s t : State} (h : AttentionRises s t) (before : s.window.attending = true) :
    t.window.attending = true := Window.attending_of_attn_kept h.attn h.mask before

/-- A set that only grows leaves empty once: the onsets of two changes are those of the whole. -/
theorem AttentionRises.onsets_add {s t u : State} (h : AttentionRises s t) (k : AttentionRises t u) :
    s.window.onsets t.window + t.window.onsets u.window = s.window.onsets u.window := by
  cases before : s.window.attending with
  | true =>
    rw [Window.onsets_of_before before, Window.onsets_of_before before, Window.onsets_of_before (h.attending before)]
  | false =>
    cases between : t.window.attending with
    | true =>
      have after := k.attending between
      simp [Window.onsets, before, between, after, k.signalling]
    | false =>
      rw [Window.onsets_of_after between, Nat.zero_add]
      simp [Window.onsets, before, between]

theorem AttentionRises.trans {s t u : State} (h : AttentionRises s t) (k : AttentionRises t u) : AttentionRises s u where
  attn := by rw [← h.attn, BitVec.and_assoc, k.attn]
  mask := k.mask.trans h.mask
  signalling := k.signalling.trans h.signalling
  messages := by rw [k.messages, h.messages, Nat.add_assoc, h.onsets_add k]

/-- A register window with the same flags, mask, message signalling and messages. -/
def Window.SameAttention (w v : Window) : Prop :=
  v.attn = w.attn ∧ v.mask = w.mask ∧ v.signalling = w.signalling ∧ v.messages = w.messages

theorem AttentionRises.of_same {s t : State} (h : s.window.SameAttention t.window) : AttentionRises s t := by
  obtain ⟨attn, mask, signalling, messages⟩ := h
  have noOnset : s.window.onsets t.window = 0 :=
    Window.onsets_of_attending_eq (by simp [Window.attending, attn, mask])
  exact ⟨by rw [attn, BitVec.and_self], mask, signalling, by rw [noOnset, messages, Nat.add_zero]⟩

theorem AttentionRises.refl (s : State) : AttentionRises s s := .of_same ⟨rfl, rfl, rfl, rfl⟩

/-- What leaves the register window alone raises nothing. -/
theorem OnlyIn.attentionRises {ps : List Part} {s t : State} (h : OnlyIn ps s t)
    (hp : Part.window ∉ ps := by decide) : AttentionRises s t :=
  .of_same (by rw [h.window hp]; exact ⟨rfl, rfl, rfl, rfl⟩)

/-- A change of attention goes on over an operation that leaves the register window alone. -/
theorem AttentionRises.frame {ps : List Part} {s t u : State} (h : AttentionRises s t) (k : OnlyIn ps t u)
    (hp : Part.window ∉ ps := by decide) : AttentionRises s u := h.trans (k.attentionRises hp)

theorem attentionRises_setWindow (s : State) {w : Window} (h : s.window.SameAttention w) :
    AttentionRises s (s.setWindow w) := .of_same h

theorem attentionRises_enterWall (x : WallState) (s : State) :
    AttentionRises s (s.setWindow { s.window with wall := x }) := attentionRises_setWindow s ⟨rfl, rfl, rfl, rfl⟩

theorem attentionRises_setAdoption (x : Option Adoption) (s : State) :
    AttentionRises s (s.setWindow { s.window with adoption := x }) := attentionRises_setWindow s ⟨rfl, rfl, rfl, rfl⟩

theorem attentionRises_setResetTaken (x : Bool) (s : State) :
    AttentionRises s (s.setWindow { s.window with resetTaken := x }) := attentionRises_setWindow s ⟨rfl, rfl, rfl, rfl⟩

theorem attentionRises_raise (c : Cause) (s : State) : AttentionRises s (raise c s) where
  attn := by
    rw [raise_attn]
    ext i
    rw [BitVec.getElem_and, BitVec.getElem_or]
    cases s.window.attn[i] <;> rfl
  mask := raise_mask c s
  signalling := raise_signalling c s
  messages := by simp [raise, Window.signal_messages]

theorem attentionRises_ite {s t u : State} {c : Prop} [Decidable c] (h : AttentionRises s t) (k : AttentionRises s u) :
    AttentionRises s (if c then t else u) := by
  split
  · exact h
  · exact k

theorem attentionRises_foldl {α : Type} (f : State → α → State) (h : ∀ s x, AttentionRises s (f s x)) (l : List α)
    (s : State) : AttentionRises s (l.foldl f s) := by
  induction l generalizing s with
  | nil => exact .refl s
  | cons x rest ih => exact (h s x).trans (ih _)

/-- A cause raised under a condition. -/
theorem attentionRises_raiseIf (p : Prop) [Decidable p] (c : Cause) (s : State) :
    AttentionRises s (if p then raise c s else s) := attentionRises_ite (attentionRises_raise c s) (.refl s)

theorem AttentionRises.dryEdge {s t : State} (h : AttentionRises s t) (before : State) :
    AttentionRises s (dryEdge before t) := h.trans (attentionRises_raiseIf _ .dry t)

/-! ## Pixels and links (R121, R148) -/

theorem attentionRises_linkTakesPixel (k : Nat) (s : State) : AttentionRises s (linkTakesPixel k s) := by
  unfold linkTakesPixel
  refine attentionRises_ite (.refl s) (attentionRises_ite (attentionRises_ite (.refl s) ?activeFrame)
    (attentionRises_ite (.refl s) ?blackFrame))
  case activeFrame => exact (onlyIn_setTile k _ s).attentionRises.trans (attentionRises_raiseIf _ .underrun _)
  case blackFrame => exact (onlyIn_updTile k _ s).attentionRises

theorem attentionRises_stepLink (k : Nat) (s : State) : AttentionRises s (stepLink k s) :=
  (onlyIn_setTile k _ s).attentionRises.trans (attentionRises_raiseIf _ .tile _)

theorem attentionRises_stepLinkUnlessDone (k : Nat) (s : State) : AttentionRises s (stepLinkUnlessDone k s) :=
  attentionRises_ite (.refl s)
    (attentionRises_ite (onlyIn_updTile k _ s).attentionRises (attentionRises_stepLink k s))

theorem attentionRises_linkAhead (event : LinkEvent) (k : Nat) (s : State) : AttentionRises s (linkAhead event k s) :=
  attentionRises_ite ((attentionRises_stepLink k s).frame (onlyIn_updTile k _ _)) (.refl s)

theorem attentionRises_takeDescriptor (k : Nat) (d : PanelDescriptor) (s : State) :
    AttentionRises s (takeDescriptor k d s) :=
  attentionRises_ite
    (attentionRises_ite (onlyIn_updTile k _ s).attentionRises
      ((onlyIn_updTile k _ s).attentionRises.trans (attentionRises_raise .tile _)))
    (.refl s)

/-! ## The settings store and the command records (R171, R173, R176) -/

theorem Window.sameAttention_finish (c : Command) (r : Result) (w : Window) : w.SameAttention (w.finish c r) := by
  unfold Window.finish
  split
  · split <;> exact ⟨rfl, rfl, rfl, rfl⟩
  · exact ⟨rfl, rfl, rfl, rfl⟩

theorem Window.sameAttention_record (code : Byte) (r : Result) (w : Window) : w.SameAttention (w.record code r) := by
  unfold Window.record
  split <;> exact ⟨rfl, rfl, rfl, rfl⟩

theorem attentionRises_finish (c : Command) (r : Result) (s : State) :
    AttentionRises s (s.setWindow (s.window.finish c r)) :=
  attentionRises_setWindow s (Window.sameAttention_finish c r _)

theorem attentionRises_recordCommand (c : Command) (r : Result) (s : State) : AttentionRises s (recordCommand c r s) :=
  attentionRises_setWindow s (Window.sameAttention_record c.code r _)

theorem attentionRises_endJob (kind : JobKind) (outcome : JobOutcome) (s : State) :
    AttentionRises s (endJob kind outcome s) := by
  have ended (c : Store) (r : Report) : AttentionRises s ((s.setStore c).setReport r) :=
    (onlyIn_setStore s c).attentionRises.frame (onlyIn_setReport _ r)
  unfold endJob
  cases kind.command with
  | none => exact ended _ _
  | some c => exact (ended _ _).trans (attentionRises_finish c .done _)

theorem attentionRises_placeJob (kind : JobKind) (writes : List (Nat × Byte)) (s : State) :
    AttentionRises s (placeJob kind writes s) :=
  attentionRises_ite (attentionRises_endJob kind .done s) (onlyIn_setStore s _).attentionRises

theorem attentionRises_offerTrimJob (entries : List TrimEntry) (s : State) :
    AttentionRises s (offerTrimJob entries s).1 := by
  unfold offerTrimJob
  split
  · exact .refl s
  · split
    · dsimp only
      exact attentionRises_placeJob .trim _ s
    · dsimp only
      exact attentionRises_endJob .trim .noImage s

theorem attentionRises_byteWritten (s : State) : AttentionRises s (byteWritten s) := by
  unfold byteWritten
  split
  · exact .refl s
  · exact .refl s
  · exact (onlyIn_setStore s _).attentionRises.trans
      (attentionRises_ite (attentionRises_endJob _ .done _) (onlyIn_setStore _ _).attentionRises)

theorem attentionRises_byteFailed (s : State) : AttentionRises s (byteFailed s) := by
  unfold byteFailed
  split
  · exact .refl s
  · exact .refl s
  · exact ((onlyIn_setStore s _).attentionRises.frame (onlyIn_setFreeIndex _ _)).trans
      (attentionRises_endJob _ .failed _)

/-! ## The Ambient Unit (R154 to R157) -/

theorem attentionRises_changeAmbient (s : State) : AttentionRises s (changeAmbient s) :=
  ((onlyIn_setAmbient s _).attentionRises.trans (attentionRises_raise .ambient _)).trans
    (onlyIn_requestLevel _ _).attentionRises

theorem attentionRises_judgeAmbient (average : Nat) (s : State) : AttentionRises s (judgeAmbient average s) := by
  unfold judgeAmbient
  cases s.prof.ambientMode with
  | auto =>
    exact attentionRises_ite
      (attentionRises_ite (attentionRises_changeAmbient s) (onlyIn_setAmbient s _).attentionRises)
      (onlyIn_setAmbient s _).attentionRises
  | forceStreet => exact .refl s
  | forceDusk => exact .refl s

theorem attentionRises_takeReading (r : Nat) (s : State) : AttentionRises s (takeReading r s) :=
  ((onlyIn_setAmbient s _).attentionRises.trans (attentionRises_raiseIf _ .ambient _)).trans
    (attentionRises_judgeAmbient _ _)

theorem attentionRises_failReading (s : State) : AttentionRises s (failReading s) := by
  have counted (c : Prop) [Decidable c] (a b : AmbientUnit) :
      AttentionRises s (if c then raise .ambient (s.setAmbient a) else s.setAmbient b) :=
    attentionRises_ite ((onlyIn_setAmbient s a).attentionRises.trans (attentionRises_raise .ambient _))
      (onlyIn_setAmbient s b).attentionRises
  unfold failReading
  dsimp only
  cases s.ambient.status with
  | fault => exact (onlyIn_setAmbient s _).attentionRises
  | good => exact counted _ _ _
  | noReading => exact counted _ _ _

theorem attentionRises_beginPolling (s : State) : AttentionRises s (beginPolling s) := by
  unfold beginPolling
  cases s.prof.ambientMode with
  | forceDusk => exact (onlyIn_setAmbient s _).attentionRises.trans (attentionRises_changeAmbient _)
  | forceStreet => exact (onlyIn_setAmbient s _).attentionRises
  | auto => exact (onlyIn_setAmbient s _).attentionRises

/-! ## The Memory Arbiter and the Report Writer (R52, R129, R182, R184) -/

theorem attentionRises_countCarried (s : State) : AttentionRises s (countCarried s) := by
  unfold countCarried
  split
  · split
    · exact attentionRises_setWindow s ⟨rfl, rfl, rfl, rfl⟩
    · exact .refl s
    · exact .refl s
  · exact .refl s

theorem attentionRises_grantHost (s : State) : AttentionRises s (grantHost s) := by
  unfold grantHost
  split
  · exact .refl s
  · split
    · exact (onlyIn_setPort s _).attentionRises.trans (attentionRises_countCarried _)
    · exact (onlyIn_setMem s _).attentionRises.trans
        (attentionRises_ite ((onlyIn_setPort _ _).attentionRises.trans (attentionRises_countCarried _))
          (onlyIn_setPort _ _).attentionRises)

theorem attentionRises_grantProfile (s : State) : AttentionRises s (grantProfile s) := by
  unfold grantProfile
  split
  · exact attentionRises_setWindow s ⟨rfl, rfl, rfl, rfl⟩
  · exact .refl s

theorem attentionRises_grantPlace4 (s : State) : AttentionRises s (grantPlace4 s) := by
  unfold grantPlace4
  split
  · exact (onlyIn_grantPlate _ s).attentionRises
  · exact attentionRises_ite (onlyIn_grantFollower s).attentionRises
      (attentionRises_ite (attentionRises_grantProfile s) (onlyIn_grantOther s).attentionRises)

theorem attentionRises_grantDecision (s : State) : AttentionRises s (grantDecision s) := by
  unfold grantDecision
  split
  · exact (onlyIn_grantEngine _ true s).attentionRises
  · refine attentionRises_ite (attentionRises_grantHost s) ?_
    split
    · exact (onlyIn_grantReport _ s).attentionRises
    · exact attentionRises_grantPlace4 s

theorem attentionRises_countFinal (kind : OutcomeKind) (s : State) : AttentionRises s (countFinal kind s) :=
  attentionRises_ite ((onlyIn_setReport s _).attentionRises.trans (attentionRises_raise .final _)) (.refl s)

theorem attentionRises_outcomeLanded (s : State) : AttentionRises s (outcomeLanded s) := by
  unfold outcomeLanded
  split
  case h_1 w _ =>
    exact ((onlyIn_popReport s).attentionRises.trans (attentionRises_countFinal w.kind _)).trans
      (onlyIn_followerOnLanded _).attentionRises
  all_goals exact .refl s

theorem attentionRises_faultLanded (s : State) : AttentionRises s (faultLanded s) := by
  unfold faultLanded
  split
  case h_1 =>
    exact ((onlyIn_popReport s).attentionRises.trans (attentionRises_raise .fault _)).trans
      (attentionRises_raiseIf _ .hold _)
  all_goals exact .refl s

theorem attentionRises_refreshLanded (s : State) : AttentionRises s (refreshLanded s) := by
  unfold refreshLanded
  split
  case h_1 =>
    exact attentionRises_ite
      (((onlyIn_popReport s).attentionRises.trans (attentionRises_raiseIf _ .mark _)).trans
        (attentionRises_raiseIf _ .store _))
      (.refl s)
  all_goals exact .refl s

/-! ## Frame 0 and adoption (R164, R165, R168) -/

theorem attentionRises_beginRunning (s : State) : AttentionRises s (beginRunning s) := by
  unfold beginRunning
  refine AttentionRises.frame (AttentionRises.frame ?polling (onlyIn_takeRefresh _)) (onlyIn_prepareEngines _)
  refine AttentionRises.trans ?linksBegun (attentionRises_beginPolling _)
  exact (onlyIn_setFtg s _).attentionRises.frame (onlyIn_forTiles _ _ onlyIn_beginLink _)

theorem attentionRises_adopt (p : Profile) (s : State) : AttentionRises s (adopt p s) := by
  unfold adopt
  refine AttentionRises.trans ?standby (attentionRises_beginRunning _)
  exact (onlyIn_setProfile s _).attentionRises.trans (attentionRises_enterWall .standby _)

theorem attentionRises_adoptRecord (p : Profile) (persist : Bool) (s : State) :
    AttentionRises s (adoptRecord p persist s) :=
  (attentionRises_adopt p s).trans
    (attentionRises_ite (attentionRises_placeJob .profile _ _) (attentionRises_finish .adoptProfile .accepted _))

theorem attentionRises_loadingEnd (unread : List Nat) (s : State) : AttentionRises s (loadingEnd unread s) := by
  unfold loadingEnd
  refine attentionRises_ite ?loaded (.refl s)
  dsimp only
  split
  · exact ((onlyIn_setStore s _).attentionRises.frame (onlyIn_loadTrims _ _)).trans (attentionRises_adopt _ _)
  · exact (onlyIn_setStore s _).attentionRises.trans (attentionRises_enterWall .awaitProfile _)

theorem attentionRises_profileReadIssue (s : State) : AttentionRises s (profileReadIssue s) := by
  unfold profileReadIssue
  split
  · exact attentionRises_ite (attentionRises_setAdoption _ s) (.refl s)
  · exact .refl s

theorem attentionRises_profileReadDone (s : State) : AttentionRises s (profileReadDone s) := by
  unfold profileReadDone
  split
  · split
    · dsimp only
      split
      · exact (attentionRises_setAdoption none s).trans (attentionRises_adoptRecord _ _ _)
      · exact (attentionRises_setAdoption none s).trans (attentionRises_finish .adoptProfile .refusedInvalid _)
    · exact .refl s
    · exact .refl s
  · exact .refl s

/-! ## The event inputs (R10 to R15) -/

theorem attentionRises_acceptEvent (i : EventInput) (s : State) : AttentionRises s (acceptEvent i s) := by
  cases i with
  | trigger => exact (onlyIn_triggerEvent s).attentionRises
  | pulse =>
    exact (onlyIn_pulseEvent s).attentionRises.trans
      (attentionRises_ite (onlyIn_setFtg _ _).attentionRises (.refl _))

theorem attentionRises_setFilter (i : EventInput) (x : Filter) (s : State) : AttentionRises s (setFilter i x s) :=
  (onlyIn_setFtg s _).attentionRises

theorem attentionRises_qualify (i : EventInput) (s : State) : AttentionRises s (qualify i s) :=
  attentionRises_ite ((attentionRises_setFilter i _ s).trans (attentionRises_acceptEvent i _))
    (attentionRises_setFilter i _ s)

theorem attentionRises_inputActive (i : EventInput) (s : State) : AttentionRises s (inputActive i s) :=
  attentionRises_ite (.refl s)
    ((onlyIn_setPins s _).attentionRises.trans (attentionRises_ite (attentionRises_qualify i _) (.refl _)))

theorem attentionRises_inputInactive (i : EventInput) (s : State) : AttentionRises s (inputInactive i s) :=
  (onlyIn_setPins s _).attentionRises.trans (attentionRises_ite (attentionRises_setFilter i .idle _) (.refl _))

theorem attentionRises_widthReached (i : EventInput) (s : State) : AttentionRises s (widthReached i s) := by
  unfold widthReached
  split
  · exact attentionRises_ite ((attentionRises_setFilter i _ s).trans (attentionRises_acceptEvent i _)) (.refl s)
  · exact .refl s
  · exact .refl s

/-! ## The commands (R176, R177) -/

theorem attentionRises_takeAdopt (persist : Bool) (s : State) : AttentionRises s (takeAdopt persist s) :=
  (attentionRises_recordCommand .adoptProfile .busy s).trans
    (attentionRises_ite (attentionRises_finish .adoptProfile .refusedInvalid _) (attentionRises_setAdoption _ _))

theorem attentionRises_takeStart (s : State) : AttentionRises s (takeStart s) := by
  unfold takeStart
  refine AttentionRises.frame (AttentionRises.frame ?showing (onlyIn_setAnchor _)) (onlyIn_followFrom _ _)
  exact (attentionRises_recordCommand .start .accepted s).trans (attentionRises_enterWall .showing _)

/-- What REDIRECT and STOP begin with: no fetch, no attempt, no uncommitted entry. -/
theorem attentionRises_abandon (s : State) : AttentionRises s (withdrawAll (endAttempt (endFollowing s))) :=
  ((onlyIn_endFollowing s).attentionRises.frame (onlyIn_endAttempt _)).frame (onlyIn_withdrawAll _)

theorem attentionRises_takeRedirect (s : State) : AttentionRises s (takeRedirect s) := by
  unfold takeRedirect
  refine AttentionRises.frame (AttentionRises.frame ?abandoned (onlyIn_setAnchor _)) (onlyIn_followFrom _ _)
  exact (attentionRises_recordCommand .redirect .accepted s).trans (attentionRises_abandon _)

theorem attentionRises_takeResume (s : State) : AttentionRises s (takeResume s) :=
  (attentionRises_recordCommand .resume .accepted s).frame (onlyIn_resumeFollowing _)

theorem attentionRises_takeStopCommand (s : State) : AttentionRises s (takeStopCommand s) := by
  unfold takeStopCommand
  refine AttentionRises.trans (AttentionRises.frame ?switched (onlyIn_setCommit _ _)) (attentionRises_enterWall .stopping _)
  refine AttentionRises.frame ?abandoned (onlyIn_forTiles _ _ (fun k u => onlyIn_updTile k _ u) _)
  exact (attentionRises_recordCommand .stop .busy s).trans (attentionRises_abandon _)

theorem attentionRises_takeWallReset (s : State) : AttentionRises s (takeWallReset s) := by
  unfold takeWallReset
  refine AttentionRises.frame ?cleared (onlyIn_requestLevel _ _)
  exact (attentionRises_recordCommand .wallReset .accepted s).trans (.of_same ⟨rfl, rfl, rfl, rfl⟩)

theorem attentionRises_takeInvalidate (s : State) : AttentionRises s (takeInvalidate s) :=
  (attentionRises_recordCommand .invalidateStore .busy s).trans (attentionRises_placeJob .invalidate _ _)

theorem attentionRises_command (c : Command) {take : State → State} (h : ∀ s, AttentionRises s (take s)) (s : State) :
    AttentionRises s (command c take s) := by
  cases judged : judge c s with
  | none => rw [command_taken take judged]; exact h s
  | some r => rw [command_refused take judged]; exact attentionRises_recordCommand c r s

/-! ## The frame start (R2) -/

theorem attentionRises_beginFrame (s : State) : AttentionRises s (beginFrame s) := by
  unfold beginFrame
  refine AttentionRises.frame (AttentionRises.frame ?advanced (onlyIn_endAttempt _)) (onlyIn_receiveWaiting _)
  refine AttentionRises.frame ?stepped (onlyIn_setFtg _ _)
  exact attentionRises_foldl _ (fun u k => attentionRises_stepLinkUnlessDone k u) _ s

theorem attentionRises_scanAtFrameStart (s : State) : AttentionRises s (scanAtFrameStart s) :=
  (onlyIn_forTiles _ _ onlyIn_scanTile s).attentionRises.trans (attentionRises_setResetTaken false _)

theorem attentionRises_dueEffect (e : DueEntry) (s : State) : AttentionRises s (dueEffect e s).1 := by
  unfold dueEffect
  split
  · exact .refl s
  · exact .refl s
  · exact (onlyIn_setReport s _).attentionRises
  · split
    · exact attentionRises_offerTrimJob _ s
    · exact .refl s

theorem attentionRises_completeReaching (s : State) (x : Reaching) : AttentionRises s (completeReaching s x) := by
  cases x with
  | scene e => exact (onlyIn_showScene e s).attentionRises
  | due e =>
    exact ((onlyIn_setCommit s _).attentionRises.trans (attentionRises_dueEffect e _)).trans
      (onlyIn_handOn _ _ _).attentionRises

theorem attentionRises_completeStop (s : State) : AttentionRises s (completeStop s) := by
  unfold completeStop
  refine attentionRises_ite ?stopped (.refl s)
  exact (onlyIn_setCommit s _).attentionRises.trans
    (attentionRises_setWindow _ (Window.sameAttention_finish .stop .done { s.window with wall := .standby }))

theorem attentionRises_completeAtFrameStart (s : State) : AttentionRises s (completeAtFrameStart s) :=
  ((attentionRises_foldl _ attentionRises_completeReaching _ s).frame (onlyIn_releaseScenes _)).trans
    (attentionRises_completeStop _)

theorem attentionRises_untilRefresh (s : State) : AttentionRises s (untilRefresh s) := by
  unfold untilRefresh
  refine AttentionRises.frame (AttentionRises.frame ?completed (onlyIn_retryLevelRequest _)) (onlyIn_prepareEngines _)
  refine AttentionRises.trans (AttentionRises.trans ?scheduled (attentionRises_scanAtFrameStart _))
    (attentionRises_completeAtFrameStart _)
  exact (attentionRises_beginFrame s).frame (onlyIn_scheduleAtFrameStart _)

theorem attentionRises_wholeFrameStart (s : State) : AttentionRises s (wholeFrameStart s) := by
  unfold wholeFrameStart
  refine AttentionRises.frame (AttentionRises.frame ?marked (onlyIn_attemptRun _ _)) (onlyIn_pollLink _)
  refine AttentionRises.frame ?refreshed (onlyIn_mapQueue _ _)
  exact (attentionRises_untilRefresh s).frame (onlyIn_takeRefresh _)

theorem attentionRises_frameStart (s : State) : AttentionRises s (frameStart s) :=
  attentionRises_ite (attentionRises_ite (onlyIn_setFtg s _).attentionRises (attentionRises_wholeFrameStart s)) (.refl s)

theorem attentionRises_waitLimitSkip (record : Nat) (s : State) : AttentionRises s (waitLimitSkip record s) :=
  attentionRises_ite ((attentionRises_wholeFrameStart s).frame (onlyIn_setFtg _ _)) (.refl s)

/-! ## Every command -/

/-- The commands that set ATTN, ATTN_MASK or message signalling to a value: the host's writes and the device reset. -/
def setsAttention : Instr → Bool
  | .deviceReset _ | .attnWrite _ | .attnMaskWrite _ | .messageSignallingChange _ => true
  | _ => false

/-- The next state of a command that always has one. -/
theorem AttentionRises.of_next {s t u : State} (h : AttentionRises s u)
    (ran : (Host.Outcome.next u : Host.Outcome State Fault Refusal) = .next t) : AttentionRises s t := by
  cases ran
  exact h

theorem attentionRises_cmdInvalidCode {code : BitVec 8} {s t : State}
    (ran : execCmdInvalidCode code s = .next t) : AttentionRises s t := by
  unfold execCmdInvalidCode at ran
  split_ifs at ran
  exact (attentionRises_setWindow s (Window.sameAttention_record code .refusedInvalid _)).of_next ran

theorem attentionRises_hostWindowAccess {a : WindowAccess} {s t : State}
    (ran : execHostWindowAccess a s = .next t) : AttentionRises s t := by
  unfold execHostWindowAccess at ran
  dsimp only at ran
  split_ifs at ran
  exact (onlyIn_setPort s _).attentionRises.of_next ran

/-- Every other command raises causes and does nothing else to attention. -/
theorem attentionRises_exec {c : Instr} {s t : State} (other : setsAttention c = false) (ran : exec c s = .next t) :
    AttentionRises s t := by
  cases c with
  | deviceReset | attnWrite | attnMaskWrite | messageSignallingChange => cases other
  | loadingEnd unread => exact (attentionRises_loadingEnd unread s).of_next ran
  | adoptProfile persist =>
    exact (attentionRises_command .adoptProfile (attentionRises_takeAdopt persist) s).of_next ran
  | profileRecordReadIssue => exact (attentionRises_profileReadIssue s).of_next ran
  | profileRecordReadDone => exact (attentionRises_profileReadDone s).of_next ran
  | start => exact (attentionRises_command .start attentionRises_takeStart s).of_next ran
  | redirect => exact (attentionRises_command .redirect attentionRises_takeRedirect s).of_next ran
  | resume => exact ((attentionRises_command .resume attentionRises_takeResume s).dryEdge s).of_next ran
  | stop => exact (attentionRises_command .stop attentionRises_takeStopCommand s).of_next ran
  | wallReset => exact (attentionRises_command .wallReset attentionRises_takeWallReset s).of_next ran
  | invalidateStore => exact (attentionRises_command .invalidateStore attentionRises_takeInvalidate s).of_next ran
  | cmdInvalidCode code => exact attentionRises_cmdInvalidCode ran
  | frameLoRead =>
    have latched : AttentionRises s (s.setWindow { s.window with readData := BitVec.ofNat 32 s.now }) :=
      attentionRises_setWindow s ⟨rfl, rfl, rfl, rfl⟩
    exact (latched.frame (onlyIn_setFtg _ _)).of_next ran
  | registerWrite target value =>
    have written : AttentionRises s (s.setWindow { s.window with arg := writeArg target value s.window.arg }) :=
      attentionRises_setWindow s ⟨rfl, rfl, rfl, rfl⟩
    exact written.of_next ran
  | hostWindowAccess access => exact attentionRises_hostWindowAccess ran
  | grantDecision => exact (attentionRises_grantDecision s).of_next ran
  | frameStart => exact ((attentionRises_frameStart s).dryEdge s).of_next ran
  | waitLimitSkip record => exact ((attentionRises_waitLimitSkip record s).dryEdge s).of_next ran
  | commitDecision => exact ((onlyIn_commitDecision s).attentionRises.dryEdge s).of_next ran
  | linkReadReturn => exact (onlyIn_linkReturned s).attentionRises.of_next ran
  | graceExpired k => exact (attentionRises_linkAhead .graceExpired k s).of_next ran
  | joinComplete k => exact (attentionRises_linkAhead .joinComplete k s).of_next ran
  | lostTimeout k => exact (attentionRises_linkAhead .lostTimeout k s).of_next ran
  | absentIdentify k => exact (attentionRises_linkAhead .absentIdentify k s).of_next ran
  | trainingTimeout k => exact (attentionRises_linkAhead .trainingTimeout k s).of_next ran
  | echo k tag => exact (onlyIn_takeEcho k tag s).attentionRises.of_next ran
  | descriptor k d => exact (attentionRises_takeDescriptor k d s).of_next ran
  | linkTakesPixel k => exact (attentionRises_linkTakesPixel k s).of_next ran
  | burstArrival k words => exact (onlyIn_burstArrives k words s).attentionRises.of_next ran
  | fetchBegin => exact (onlyIn_fetchBegin s).attentionRises.of_next ran
  | recordWordsArrived => exact ((onlyIn_recordArrived s).attentionRises.dryEdge s).of_next ran
  | departingWriteReceived => exact ((onlyIn_receiveDeparting s).attentionRises.dryEdge s).of_next ran
  | holdFaultReceived => exact (onlyIn_receiveHoldFault s).attentionRises.of_next ran
  | handoffWriteReceived => exact (onlyIn_receiveHandoff s).attentionRises.of_next ran
  | outcomeWriteLanded => exact (attentionRises_outcomeLanded s).of_next ran
  | faultRecordLanded => exact (attentionRises_faultLanded s).of_next ran
  | refreshLanded => exact (attentionRises_refreshLanded s).of_next ran
  | eventInputActive event => exact (attentionRises_inputActive event s).of_next ran
  | eventInputInactive event => exact (attentionRises_inputInactive event s).of_next ran
  | filterWidthReached event => exact (attentionRises_widthReached event s).of_next ran
  | ambientPoll => exact (attentionRises_ite (onlyIn_setAmbient s _).attentionRises (.refl s)).of_next ran
  | sensorReading first second => exact (attentionRises_ite (attentionRises_takeReading _ s) (.refl s)).of_next ran
  | sensorReadFailure => exact (attentionRises_ite (attentionRises_failReading s) (.refl s)).of_next ran
  | byteWriteDone => exact (attentionRises_byteWritten s).of_next ran
  | byteWriteFailed => exact (attentionRises_byteFailed s).of_next ran

theorem deviceReset_attending (cut : CutByte) (s : State) : (deviceReset cut s).window.attending = false := by
  simp [deviceReset, Window.attending, State.reset]

/-- The commands that set attention to a value change it once, so that their message is that of the one change. -/
theorem messages_of_setsAttention {c : Instr} {s t : State} (sets : setsAttention c = true) (ran : exec c s = .next t) :
    t.window.messages = s.window.messages + s.window.onsets t.window := by
  cases c with
  | deviceReset cut =>
    obtain rfl : deviceReset cut s = t := Host.Outcome.next.inj ran
    rw [Window.onsets_of_after (deviceReset_attending cut s)]
    rfl
  | attnWrite value =>
    cases ran
    simp [Window.signal_messages]
  | attnMaskWrite value =>
    cases ran
    simp [Window.signal_messages]
  | messageSignallingChange enabled =>
    have sameSet : t.window.attending = s.window.attending := by cases ran; rfl
    rw [Window.onsets_of_attending_eq sameSet]
    cases ran
    rfl
  | _ => cases sets

/-- Settles O11: a command sets attention to a value in one change, or raises causes, which leave the empty set of flags
both set and enabled at most once. -/
theorem oneMessagePerTransition : Obligations.OneMessagePerTransition := by
  intro c s t ran
  cases sets : setsAttention c with
  | true => exact messages_of_setsAttention sets ran
  | false => exact (attentionRises_exec sets ran).messages

end Sys2Proof.Machine
end

section
/-! The registers CMD, ATTN and ATTN_MASK: a code that names no command, the two fields of a CMD read, and the bits above
bit 8, which a write ignores and a read of ATTN or ATTN_MASK gives as 0 (R176, R189). -/

namespace Sys2Proof.Machine

/-! ## A code that names no command (R189) -/

theorem exec_cmdInvalidCode {code : BitVec 8} (unnamed : namesCommand code = false) (s : State) :
    exec (.cmdInvalidCode code) s = .next (s.setWindow (s.window.record code .refusedInvalid)) :=
  if_neg (of_decide_eq_false unnamed)

/-- Only a WALL_RESET taken while STOP is busy takes the main record of a busy window; a result other than ACCEPTED
never does (R176). -/
theorem Window.record_of_not_accepted {result : Result} (h : result ≠ .accepted) (code : Byte) (w : Window) :
    w.record code result =
      if w.busy then { w with side := some ⟨code, result⟩ } else { w with main := some ⟨code, result⟩, side := none } := by
  simp [Window.record, h]

/-! ## The fields of a CMD read (R176) -/

theorem Result.code_lt (r : Result) : r.code < 2 ^ 4 := by cases r <;> decide

theorem cmdField_none : cmdField none = 0 := rfl

theorem cmdField_lt (r : Option CmdRecord) : cmdField r < 2 ^ 12 := by
  cases r with
  | none => decide
  | some r =>
    have code := r.code.isLt
    have result := r.result.code_lt
    simp only [cmdField]
    omega

/-- Neither record's field reaches into the other's bits, nor past bit 31. -/
theorem State.readRegister_cmd_toNat (s : State) :
    (s.readRegister 0x00).toNat = cmdField s.window.main + 65536 * cmdField s.window.side := by
  have main := cmdField_lt s.window.main
  have side := cmdField_lt s.window.side
  exact Nat.mod_eq_of_lt (by omega)

theorem State.readRegister_cmd_main (s : State) :
    ((s.readRegister 0x00).extractLsb' 0 12).toNat = cmdField s.window.main := by
  have main := cmdField_lt s.window.main
  rw [BitVec.extractLsb'_toNat, s.readRegister_cmd_toNat, Nat.shiftRight_zero]
  omega

theorem State.readRegister_cmd_side (s : State) :
    ((s.readRegister 0x00).extractLsb' 16 12).toNat = cmdField s.window.side := by
  have main := cmdField_lt s.window.main
  have side := cmdField_lt s.window.side
  rw [BitVec.extractLsb'_toNat, s.readRegister_cmd_toNat, Nat.shiftRight_eq_div_pow]
  omega

/-! ## The bits above bit 8 (R189) -/

section
variable {w v : BitVec 32} (low : w.extractLsb' 0 9 = v.extractLsb' 0 9)
include low

/-- CMD's code and persist option lie in bits 0..8. -/
theorem decodeCmdWrite_congr : decodeCmdWrite w = decodeCmdWrite v := by
  have bit : ∀ i < 9, w.getLsbD i = v.getLsbD i := fun i hi => by
    simpa [hi] using congrArg (BitVec.getLsbD · i) low
  have code : w.extractLsb' 0 8 = v.extractLsb' 0 8 := BitVec.eq_of_getLsbD_eq fun i hi => by
    simp [hi, bit i (by omega)]
  simp only [decodeCmdWrite, code, bit 8 (by decide)]

theorem exec_attnWrite_congr (s : State) : exec (.attnWrite w) s = exec (.attnWrite v) s := by
  show execAttnWrite w s = execAttnWrite v s
  rw [execAttnWrite, low, execAttnWrite]

theorem exec_attnMaskWrite_congr (s : State) : exec (.attnMaskWrite w) s = exec (.attnMaskWrite v) s := by
  show execAttnMaskWrite w s = execAttnMaskWrite v s
  rw [execAttnMaskWrite, low, execAttnMaskWrite]

end

theorem State.readRegister_attn (s : State) : s.readRegister 0x10 = s.window.attn.zeroExtend 32 := rfl

theorem State.readRegister_attnMask (s : State) : s.readRegister 0x14 = s.window.mask.zeroExtend 32 := rfl

theorem zeroExtend_toNat_lt (x : BitVec 9) : (x.zeroExtend 32).toNat < 2 ^ 9 :=
  (BitVec.toNat_setWidth_of_le (by decide)).trans_lt x.isLt

/-- Settles O32: an unnamed code is recorded as a refusal and nothing else; the fields of a CMD read are those of the two
records; and of what CMD, ATTN and ATTN_MASK take and give, only bits 0..8 count. -/
theorem invalidCodesAreRefused : Obligations.InvalidCodesAreRefused := by
  refine ⟨fun code s unnamed => ?_, fun s => ⟨fun noMain => ?_, fun noSide => ?_⟩, fun w v s low => ?_, fun s => ?_⟩
  · exact ⟨_, exec_cmdInvalidCode unnamed s, onlyIn_setWindow s _, Window.record_of_not_accepted (by decide) code _⟩
  · exact BitVec.eq_of_toNat_eq (by rw [s.readRegister_cmd_main, noMain, cmdField_none]; rfl)
  · exact BitVec.eq_of_toNat_eq (by rw [s.readRegister_cmd_side, noSide, cmdField_none]; rfl)
  · exact ⟨decodeCmdWrite_congr low, exec_attnWrite_congr low s, exec_attnMaskWrite_congr low s⟩
  · rw [s.readRegister_attn, s.readRegister_attnMask]
    exact ⟨zeroExtend_toNat_lt _, zeroExtend_toNat_lt _⟩

end Sys2Proof.Machine
end

section
/-! The arithmetic of the manual: an AT target as a time of day (R64), the fetch of a valid plate (R28) and the fade mixer
(R107). -/

namespace Sys2Proof.Machine

/-! ## AT targets (R64) -/

/-- Going `(b - a) mod day` frames on from the time of day `a` one reaches the time of day `b`. -/
theorem timeOfDay_add_ahead {day a b : Nat} (ha : a < day) (hb : b < day) :
    (a + (b + day - a) % day) % day = b := by
  rw [Nat.add_mod_mod, Nat.add_sub_cancel' (by omega), Nat.add_mod_right, Nat.mod_eq_of_lt hb]

/-- The same as a congruence of integers, for the target ahead and for the one a day before it. -/
theorem timeOfDay_add_ahead_int {day a b : Nat} (ha : a < day) (hb : b < day) :
    ((a : Int) + ((b + day - a) % day : Nat)) % (day : Int) = b := by
  exact_mod_cast timeOfDay_add_ahead ha hb

section
variable {p : Profile} {now : Nat} {clock atTime : Clock}

theorem timeOfDay_lt {rate : Nat} (positive : 0 < rate) (c : Clock) : timeOfDay rate c < 86400 * rate :=
  Nat.mod_lt _ (by omega)

/-- The frames from the clock's time of day to that of an AT time, less than a day. -/
def framesAhead (p : Profile) (clock atTime : Clock) : Nat :=
  (timeOfDay p.rate atTime + 86400 * p.rate - timeOfDay p.rate clock) % (86400 * p.rate)

theorem framesAhead_lt (positive : 0 < p.rate) : framesAhead p clock atTime < 86400 * p.rate :=
  Nat.mod_lt _ (by omega)

theorem atTarget_of_ahead (h : framesAhead p clock atTime ≤ 86400 * p.rate - p.lateWindow * p.rate) :
    atTarget p now clock atTime = ((now : Int) + framesAhead p clock atTime, false) := if_pos h

theorem atTarget_of_late (h : 86400 * p.rate - p.lateWindow * p.rate < framesAhead p clock atTime) :
    atTarget p now clock atTime =
      ((now : Int) - (((86400 * p.rate : Nat) : Int) - framesAhead p clock atTime), true) :=
  if_neg (Nat.not_le.mpr h)

/-- At its target the clock shows the AT time. -/
theorem atTarget_shows_atTime (positive : 0 < p.rate) :
    ((timeOfDay p.rate clock : Int) + ((atTarget p now clock atTime).1 - now)) % ((86400 * p.rate : Nat) : Int) =
      (timeOfDay p.rate atTime : Int) := by
  have reached := timeOfDay_add_ahead_int (timeOfDay_lt positive clock) (timeOfDay_lt positive atTime)
  rcases Nat.lt_or_ge (86400 * p.rate - p.lateWindow * p.rate) (framesAhead p clock atTime) with late | ahead
  · have dayBefore : (timeOfDay p.rate clock : Int) + ((atTarget p now clock atTime).1 - now) =
        (timeOfDay p.rate clock : Int) + framesAhead p clock atTime - ((86400 * p.rate : Nat) : Int) := by
      rw [atTarget_of_late late]
      omega
    rw [dayBefore, Int.sub_emod_right]
    exact reached
  · have onTheDay : (timeOfDay p.rate clock : Int) + ((atTarget p now clock atTime).1 - now) =
        (timeOfDay p.rate clock : Int) + framesAhead p clock atTime := by
      rw [atTarget_of_ahead ahead]
      omega
    rw [onTheDay]
    exact reached

end

/-- Settles O15: the target is `framesAhead` on, or a day before that when it falls into the late window. -/
theorem atTargetIsTheTimeOfDay : Obligations.AtTargetIsTheTimeOfDay := by
  intro p now clock atTime positive window
  have short : p.lateWindow * p.rate ≤ 86400 * p.rate := Nat.mul_le_mul_right _ (by omega)
  have bound : framesAhead p clock atTime < 86400 * p.rate := framesAhead_lt positive
  refine ⟨atTarget_of_ahead, atTarget_of_late, atTarget_shows_atTime positive, ?_⟩
  rcases Nat.lt_or_ge (86400 * p.rate - p.lateWindow * p.rate) (framesAhead p clock atTime) with late | ahead
  · rw [atTarget_of_late late]
    refine ⟨fun h => Bool.noConfusion h, fun _ => ?_⟩
    dsimp only
    omega
  · rw [atTarget_of_ahead ahead]
    refine ⟨fun _ => ?_, fun h => Bool.noConfusion h⟩
    dsimp only
    omega

/-! ## The words a tile fetches (R20, R26 to R28) -/

/-- A row inside the plate lies between the origin's row and the plate's last one (R26). -/
theorem add_lt_of_lt_rowsInside {h plateH y0 r : Nat} (inside : r < rowsInside h plateH y0) : y0 + r < plateH := by
  unfold rowsInside at inside
  omega

/-- The words of a row inside the plate lie in the words of the plate's row (R27). -/
theorem half_add_lt_of_lt_wordsPerRow {w plateW x0 k : Nat} (inside : k < wordsPerRow x0 (columnsInside w plateW x0)) :
    x0 / 2 + k < (plateW + 1) / 2 := by
  unfold wordsPerRow columnsInside at inside
  split at inside <;> omega

/-- Settles O17: the row lies among the plate's rows and the word among those of a stride. -/
theorem fetchStaysInsideTheExtent : Obligations.FetchStaysInsideTheExtent := by
  intro e size x0 y0 fill r k fits c row word
  obtain ⟨-, -, -, -, -, stride, extent⟩ := of_decide_eq_true fits
  have rowInside : y0 + r + 1 ≤ e.height := add_lt_of_lt_rowsInside row
  have wordInside : x0 / 2 + k < e.stride := (half_add_lt_of_lt_wordsPerRow word).trans_le stride
  have rows : (y0 + r + 1) * e.stride ≤ e.height * e.stride := Nat.mul_le_mul_right _ rowInside
  have start : c.rowStart r = e.base / 8 + (y0 + r) * e.stride + x0 / 2 := rfl
  rw [Config.showBytes] at extent
  rw [Nat.add_one_mul] at rows
  rw [start]
  refine ⟨?_, ?_, ?_⟩ <;> omega

/-! ## The fade mixer (R107) -/

section
variable {a b n i : Nat}

/-- The value is the quotient of the weighted sum rounded at half. -/
theorem mix_bounds (positive : 1 ≤ n) :
    2 * (a * (n - i) + b * i) < 2 * n * mix a b n i + n ∧ 2 * n * mix a b n i ≤ 2 * (a * (n - i) + b * i) + n := by
  have lower : n * mix a b n i ≤ a * (n - i) + b * i + n / 2 := Nat.mul_div_le _ _
  have upper : a * (n - i) + b * i + n / 2 < n * mix a b n i + n := Nat.lt_mul_div_succ _ positive
  rw [Nat.mul_assoc 2 n]
  omega

theorem mix_eq_of_sum {m : Nat} (positive : 1 ≤ n) (sum : a * (n - i) + b * i = m * n) : mix a b n i = m := by
  rw [mix, sum, Nat.mul_comm m, Nat.mul_add_div positive, Nat.div_eq_of_lt (by omega), Nat.add_zero]

theorem mix_same (positive : 1 ≤ n) (step : i ≤ n) : mix a a n i = a :=
  mix_eq_of_sum positive (by rw [← Nat.mul_add, Nat.sub_add_cancel step])

theorem mix_last (positive : 1 ≤ n) : mix a b n n = b :=
  mix_eq_of_sum positive (by rw [Nat.sub_self, Nat.mul_zero, Nat.zero_add])

/-- Both contents mixed at once are no more than the greatest component mixed with itself. -/
theorem mix_mono {a' b' : Nat} (ha : a ≤ a') (hb : b ≤ b') : mix a b n i ≤ mix a' b' n i :=
  Nat.div_le_div_right (Nat.add_le_add_right
    (Nat.add_le_add (Nat.mul_le_mul_right _ ha) (Nat.mul_le_mul_right _ hb)) _)

end

/-- Settles O18. -/
theorem fadeMixIsTheRoundedMean : Obligations.FadeMixIsTheRoundedMean := by
  intro a b n i ha hb positive step
  exact ⟨(mix_mono ha hb).trans_eq (mix_same positive step), mix_same positive step, mix_last positive,
    mix_bounds positive⟩

end Sys2Proof.Machine
end

section
/-! The queue of commands, the state after power-on, and the device reset (R16, R32, R48, R77, R99, R174, R185). -/

namespace Sys2Proof.Machine

/-- Settles O1: both sides are the step unfolded. -/
theorem stepRunsFrontCommand : Obligations.StepRunsFrontCommand := fun _ _ _ => ⟨rfl, rfl⟩

/-! ## Power-on -/

/-- Every tile column of the power-on state is at its reset values, one past the sixteenth being read as such too. -/
theorem tile_of_tiles_replicate {s : State} (h : s.tiles = List.replicate Config.tileCount .reset) (k : Nat) :
    s.tile k = .reset := by
  rw [State.tile, h, List.getD_eq_getElem?_getD, List.getElem?_getD_replicate_default_eq]

theorem tile_reset (k : Nat) : State.reset.tile k = .reset := tile_of_tiles_replicate rfl k

theorem controlInv_reset : ControlInv State.reset := by
  constructor <;> decide

theorem lookAheadInv_reset : LookAheadInv State.reset where
  room := by decide
  distinct := List.nodup_nil
  fresh := fun _ _ => List.not_mem_nil

theorem depthInv_reset : DepthInv State.reset := by
  constructor <;> decide

theorem switchInv_reset : SwitchInv State.reset where
  places := fun k => by rw [tile_reset]; decide
  ordered := fun k => by rw [tile_reset]; exact List.Pairwise.nil
  ahead := fun k => by rw [tile_reset]; exact fun _ h => nomatch h
  latency := fun k _ h => by rw [tile_reset] at h; cases h
  idle := fun _ => ⟨rfl, fun k => by rw [tile_reset]; rfl⟩
  tilesOnce := fun _ h => nomatch h

/-- Settles O4. -/
theorem resetStateMeetsInvariants : Obligations.ResetStateMeetsInvariants :=
  ⟨rfl, controlInv_reset, lookAheadInv_reset, by unfold WriteQueueInv; decide, depthInv_reset, switchInv_reset⟩

/-! ## DEVICE_RESET -/

theorem exec_deviceReset (cut : CutByte) (s : State) : exec (.deviceReset cut) s = .next (deviceReset cut s) := rfl

theorem tile_deviceReset (cut : CutByte) (s : State) (k : Nat) : (deviceReset cut s).tile k = .reset :=
  tile_of_tiles_replicate rfl k

/-- The byte write that a reset cuts leaves its position erased or with its new value (R170). -/
theorem Store.cut_of_writing {c : Store} {kind : JobKind} {p : Nat} {v : Byte} {rest : List (Nat × Byte)}
    (h : c.job = some ⟨kind, (p, v) :: rest⟩) (how : CutByte) :
    c.cut how = c.eeprom.set p (if how = .written then v else 0xFF) := by
  cases how <;> simp [Store.cut, h]

theorem Store.cut_of_idle {c : Store} (h : c.job = none) (how : CutByte) : c.cut how = c.eeprom := by
  simp [Store.cut, h]

/-- Settles O21. -/
theorem deviceResetClearsThePart : Obligations.DeviceResetClearsThePart := by
  intro cut s
  refine ⟨deviceReset cut s, exec_deviceReset cut s, rfl, rfl, rfl, rfl, rfl, fun k _ => ?tile, rfl, rfl, rfl, rfl, rfl,
    rfl, rfl, rfl, fun p => ?image, rfl, fun kind p v rest job => ?cut, fun job => ?idle, rfl, rfl, rfl, rfl, rfl, rfl,
    rfl, rfl, rfl, rfl, rfl, rfl, rfl, rfl, rfl, rfl⟩
  case tile =>
    rw [tile_deviceReset]
    simp only [Tile.reset, Scan.reset, Engine.reset, Lane.empty, Link.reset, Content.noPlate, and_self]
  case image => exact (List.getD_eq_getElem?_getD ..).trans (List.getElem?_getD_replicate_default_eq ..)
  case cut => exact Store.cut_of_writing job cut
  case idle => exact Store.cut_of_idle job cut

end Sys2Proof.Machine
end

section
/-! The parts of the state each command can change, and what follows from that alone: show memory changes at grants only
(R128), and stays canonical; flags of ATTN stay set (R180). -/

set_option Elab.async false

namespace Sys2Proof.Machine

/-! ## The parts a command can change -/

/-- The parts of the state that a command can change. -/
def parts : Instr → List Part
  | .deviceReset _ => [.profile, .ftg, .follower, .scheduler, .commit, .tiles, .arbiter, .port, .ambient, .store, .report,
      .window]
  | .loadingEnd _ | .profileRecordReadDone => [.profile, .ftg, .tiles, .ambient, .window, .commit, .report, .store]
  | .start => [.window, .scheduler, .follower, .report]
  | .redirect => [.window, .follower, .commit, .scheduler, .report]
  | .resume => [.window, .follower, .report]
  | .stop => [.window, .follower, .commit, .scheduler, .report, .tiles]
  | .wallReset => [.window, .follower, .scheduler, .ftg, .commit, .tiles]
  | .invalidateStore | .byteWriteDone => [.store, .report, .window]
  | .adoptProfile _ | .profileRecordReadIssue | .cmdInvalidCode _ | .attnWrite _ | .attnMaskWrite _
  | .registerWrite _ _ | .messageSignallingChange _ => [.window]
  | .frameLoRead => [.window, .ftg]
  | .hostWindowAccess _ => [.port]
  | .grantDecision => [.mem, .port, .window, .tiles, .arbiter, .report, .commit, .follower]
  | .frameStart | .waitLimitSkip _ => [.ftg, .follower, .scheduler, .commit, .tiles, .store, .report, .window]
  | .commitDecision => [.commit, .tiles, .ftg, .scheduler, .follower, .report, .window]
  | .linkReadReturn => [.follower, .report]
  | .graceExpired _ | .joinComplete _ | .lostTimeout _ | .absentIdentify _ | .trainingTimeout _ | .descriptor _ _
  | .linkTakesPixel _ => [.tiles, .window]
  | .echo _ _ | .burstArrival _ _ => [.tiles]
  | .fetchBegin => [.follower]
  | .recordWordsArrived | .departingWriteReceived => [.scheduler, .follower, .report, .window]
  | .holdFaultReceived => [.report]
  | .handoffWriteReceived => [.report, .commit]
  | .outcomeWriteLanded => [.report, .window, .follower]
  | .faultRecordLanded | .refreshLanded => [.report, .window]
  | .eventInputActive _ => [.pins, .ftg, .scheduler, .commit]
  | .eventInputInactive _ => [.pins, .ftg]
  | .filterWidthReached _ => [.ftg, .scheduler, .commit]
  | .ambientPoll => [.ambient]
  | .sensorReading _ _ => [.ambient, .window, .commit, .tiles]
  | .sensorReadFailure => [.ambient, .window]
  | .byteWriteFailed => [.store, .report, .window, .freeIndex]

/-! ## The commands of the register window -/

theorem onlyIn_command {ps : List Part} {c : Command} {take : State → State} {s : State} (h : OnlyIn ps s (take s))
    (hw : [.window] ⊆ ps := by decide) : OnlyIn ps s (command c take s) := by
  cases judged : judge c s with
  | none => rw [command_taken take judged]; exact h
  | some r => rw [command_refused take judged]; exact (onlyIn_recordCommand c r s).mono hw

theorem onlyIn_takeAdopt (persist : Bool) (s : State) : OnlyIn [.window] s (takeAdopt persist s) :=
  onlyIn_ite ((onlyIn_recordCommand _ _ s).trans (onlyIn_setWindow _ _))
    ((onlyIn_recordCommand _ _ s).trans (onlyIn_setWindow _ _))

theorem onlyIn_takeStart (s : State) : OnlyIn [.window, .scheduler, .follower, .report] s (takeStart s) := by
  have entered : OnlyIn [.window] s ((recordCommand .start .accepted s).setWindow
      { (recordCommand .start .accepted s).window with wall := .showing }) :=
    (onlyIn_recordCommand _ _ s).trans (onlyIn_setWindow _ _)
  have anchored := entered.comp (onlyIn_setAnchor _) (rs := [.window, .scheduler])
  exact anchored.comp (onlyIn_followFrom _ _)

/-- Following is given up, the attempt ended and every entry withdrawn (R46, R47). -/
theorem onlyIn_withdrawn (s : State) :
    OnlyIn [.follower, .commit, .scheduler, .report] s (withdrawAll (endAttempt (endFollowing s))) :=
  ((onlyIn_endFollowing s).comp (onlyIn_endAttempt _) (rs := [.follower, .commit])).comp (onlyIn_withdrawAll _)

theorem onlyIn_takeRedirect (s : State) :
    OnlyIn [.window, .follower, .commit, .scheduler, .report] s (takeRedirect s) := by
  have withdrawn := (onlyIn_recordCommand .redirect .accepted s).comp (onlyIn_withdrawn _)
    (rs := [.window, .follower, .commit, .scheduler, .report])
  exact (withdrawn.trans ((onlyIn_setAnchor _).mono (by decide))).comp (onlyIn_followFrom _ _)

theorem onlyIn_takeResume (s : State) : OnlyIn [.window, .follower, .report] s (takeResume s) :=
  (onlyIn_recordCommand _ _ s).comp (onlyIn_resumeFollowing _)

theorem onlyIn_takeStopCommand (s : State) :
    OnlyIn [.window, .follower, .commit, .scheduler, .report, .tiles] s (takeStopCommand s) := by
  have withdrawn := (onlyIn_recordCommand .stop .busy s).comp (onlyIn_withdrawn _)
    (rs := [.window, .follower, .commit, .scheduler, .report, .tiles])
  refine OnlyIn.trans (OnlyIn.trans (OnlyIn.trans withdrawn ?placed) ((onlyIn_setCommit _ _).mono (by decide)))
    ((onlyIn_setWindow _ _).mono (by decide))
  exact (onlyIn_forTiles _ _ (fun k u => onlyIn_updTile k _ u) _).mono (by decide)

theorem onlyIn_takeWallReset (s : State) :
    OnlyIn [.window, .follower, .scheduler, .ftg, .commit, .tiles] s (takeWallReset s) := by
  unfold takeWallReset
  refine OnlyIn.trans ?cleared ((onlyIn_requestLevel _ _).mono (by decide))
  refine OnlyIn.trans ?idle ((onlyIn_setWindow _ _).mono (by decide))
  refine OnlyIn.trans ?emptied ((onlyIn_setFtg _ _).mono (by decide))
  refine OnlyIn.trans ?undecided ((onlyIn_setTiles _ _).mono (by decide))
  refine OnlyIn.trans ?unscheduled ((onlyIn_setCommit _ _).mono (by decide))
  refine OnlyIn.trans ?stopped ((onlyIn_setScheduler _ _).mono (by decide))
  refine OnlyIn.trans ?followed ((onlyIn_setFollower _ _).mono (by decide))
  exact (onlyIn_recordCommand _ _ s).comp (onlyIn_endFollowing _)

theorem onlyIn_takeInvalidate (s : State) : OnlyIn [.store, .report, .window] s (takeInvalidate s) :=
  (onlyIn_recordCommand _ _ s).comp (onlyIn_placeJob _ _ _)

/-! ## Frame 0, grants and landings -/

theorem onlyIn_loadingEnd (unread : List Nat) (s : State) :
    OnlyIn [.profile, .ftg, .tiles, .ambient, .window, .commit, .report, .store] s (loadingEnd unread s) := by
  unfold loadingEnd
  refine onlyIn_ite ?loaded (.refl _ _)
  dsimp only
  split
  · exact ((onlyIn_setStore s _).comp (onlyIn_loadTrims _ _) (rs := [.tiles, .store])).comp (onlyIn_adopt _ _)
  · exact (onlyIn_setStore s _).comp (onlyIn_setWindow _ _)

theorem onlyIn_profileReadIssue (s : State) : OnlyIn [.window] s (profileReadIssue s) := by
  unfold profileReadIssue
  split
  · exact onlyIn_ite (onlyIn_setWindow s _) (.refl _ s)
  · exact .refl _ s

theorem onlyIn_adoptRecord (p : Profile) (persist : Bool) (s : State) :
    OnlyIn [.profile, .ftg, .tiles, .ambient, .window, .commit, .report, .store] s (adoptRecord p persist s) :=
  onlyIn_ite ((onlyIn_adopt p s).comp (onlyIn_placeJob _ _ _)) ((onlyIn_adopt p s).comp (onlyIn_setWindow _ _))

theorem onlyIn_profileReadDone (s : State) :
    OnlyIn [.profile, .ftg, .tiles, .ambient, .window, .commit, .report, .store] s (profileReadDone s) := by
  unfold profileReadDone
  split
  · split
    · dsimp only
      split
      · exact (onlyIn_setWindow s _).comp (onlyIn_adoptRecord _ _ _)
      · exact (onlyIn_setWindow s _).comp (onlyIn_setWindow _ _)
    · exact .refl _ s
    · exact .refl _ s
  · exact .refl _ s

theorem onlyIn_grantDecision (s : State) :
    OnlyIn [.mem, .port, .window, .tiles, .arbiter, .report, .commit, .follower] s (grantDecision s) := by
  unfold grantDecision
  split
  · exact (onlyIn_grantEngine _ _ s).mono (by decide)
  · refine onlyIn_ite ((onlyIn_grantHost s).mono (by decide)) ?rest
    split
    · exact (onlyIn_grantReport _ s).mono (by decide)
    · exact (onlyIn_grantPlace4 s).mono (by decide)

theorem onlyIn_outcomeLanded (s : State) : OnlyIn [.report, .window, .follower] s (outcomeLanded s) := by
  unfold outcomeLanded
  split
  case h_1 =>
    exact ((onlyIn_popReport s).comp (onlyIn_countFinal _ _) (rs := [.report, .window])).comp (onlyIn_followerOnLanded _)
  all_goals exact .refl _ s

theorem onlyIn_faultLanded (s : State) : OnlyIn [.report, .window] s (faultLanded s) := by
  unfold faultLanded
  split
  case h_1 =>
    have landed := (onlyIn_popReport s).comp (onlyIn_raise .fault _) (rs := [.report, .window])
    exact onlyIn_ite (landed.comp (onlyIn_raise .hold _)) landed
  all_goals exact .refl _ s

theorem onlyIn_raiseIf (b : Bool) (c : Cause) (s : State) : OnlyIn [.window] s (if b then raise c s else s) :=
  onlyIn_ite (onlyIn_raise c s) (.refl _ s)

theorem onlyIn_refreshLanded (s : State) : OnlyIn [.report, .window] s (refreshLanded s) := by
  unfold refreshLanded
  split
  case h_1 =>
    refine onlyIn_ite ?landed (.refl _ s)
    exact ((onlyIn_popReport s).comp (onlyIn_raiseIf _ .mark _) (rs := [.report, .window])).comp
      (onlyIn_raiseIf _ .store _)
  all_goals exact .refl _ s

/-! ## The event inputs -/

theorem onlyIn_acceptEvent (i : EventInput) (s : State) : OnlyIn [.ftg, .scheduler, .commit] s (acceptEvent i s) := by
  cases i with
  | trigger => exact (onlyIn_triggerEvent s).mono (by decide)
  | pulse => exact (onlyIn_pulseEvent s).comp (onlyIn_ite (onlyIn_setFtg _ _) (.refl _ _))

theorem onlyIn_setFilter (i : EventInput) (x : Filter) (s : State) : OnlyIn [.ftg] s (setFilter i x s) := onlyIn_setFtg s _

theorem onlyIn_qualify (i : EventInput) (s : State) : OnlyIn [.ftg, .scheduler, .commit] s (qualify i s) :=
  onlyIn_ite ((onlyIn_setFilter i _ s).comp (onlyIn_acceptEvent i _)) ((onlyIn_setFilter i _ s).mono (by decide))

theorem onlyIn_inputActive (i : EventInput) (s : State) :
    OnlyIn [.pins, .ftg, .scheduler, .commit] s (inputActive i s) :=
  onlyIn_ite (.refl _ s)
    (onlyIn_ite ((onlyIn_setPins s _).comp (onlyIn_qualify i _)) ((onlyIn_setPins s _).mono (by decide)))

theorem onlyIn_inputInactive (i : EventInput) (s : State) : OnlyIn [.pins, .ftg] s (inputInactive i s) :=
  onlyIn_ite ((onlyIn_setPins s _).comp (onlyIn_setFilter i _ _)) ((onlyIn_setPins s _).mono (by decide))

theorem onlyIn_widthReached (i : EventInput) (s : State) : OnlyIn [.ftg, .scheduler, .commit] s (widthReached i s) := by
  unfold widthReached
  split
  case h_1 => exact onlyIn_ite ((onlyIn_setFilter i _ s).comp (onlyIn_acceptEvent i _)) (.refl _ s)
  all_goals exact .refl _ s

/-! ## The device reset -/

theorem onlyIn_deviceReset (cut : CutByte) (s : State) :
    OnlyIn [.profile, .ftg, .follower, .scheduler, .commit, .tiles, .arbiter, .port, .ambient, .store, .report, .window]
      s (deviceReset cut s) := by
  intro p kept
  cases p with
  | mem | pins | freeIndex | pending => rfl
  | _ => exact absurd (by decide) kept

/-! ## Every command -/

theorem OnlyIn.of_next {ps : List Part} {s t u : State} (h : OnlyIn ps s u)
    (ran : (Host.Outcome.next u : Host.Outcome State Fault Refusal) = .next t) : OnlyIn ps s t := by
  cases ran
  exact h

theorem onlyIn_cmdInvalidCode {code : BitVec 8} {s t : State} (ran : execCmdInvalidCode code s = .next t) :
    OnlyIn [.window] s t := by
  unfold execCmdInvalidCode at ran
  split_ifs at ran
  exact (onlyIn_setWindow s _).of_next ran

theorem onlyIn_hostWindowAccess {a : WindowAccess} {s t : State} (ran : execHostWindowAccess a s = .next t) :
    OnlyIn [.port] s t := by
  unfold execHostWindowAccess at ran
  dsimp only at ran
  split_ifs at ran
  exact (onlyIn_setPort s _).of_next ran

/-- A command changes its parts of the state alone. -/
theorem onlyIn_exec {c : Instr} {s t : State} (ran : exec c s = .next t) : OnlyIn (parts c) s t := by
  cases c with
  | deviceReset cut => exact (onlyIn_deviceReset cut s).of_next ran
  | loadingEnd unread => exact (onlyIn_loadingEnd unread s).of_next ran
  | adoptProfile persist => exact (onlyIn_command (onlyIn_takeAdopt persist s)).of_next ran
  | profileRecordReadIssue => exact (onlyIn_profileReadIssue s).of_next ran
  | profileRecordReadDone => exact (onlyIn_profileReadDone s).of_next ran
  | start => exact (onlyIn_command (onlyIn_takeStart s)).of_next ran
  | redirect => exact (onlyIn_command (onlyIn_takeRedirect s)).of_next ran
  | resume => exact (onlyIn_dryEdge s (onlyIn_command (onlyIn_takeResume s)) (by decide)).of_next ran
  | stop => exact (onlyIn_command (onlyIn_takeStopCommand s)).of_next ran
  | wallReset => exact (onlyIn_command (onlyIn_takeWallReset s)).of_next ran
  | invalidateStore => exact (onlyIn_command (onlyIn_takeInvalidate s)).of_next ran
  | cmdInvalidCode code => exact onlyIn_cmdInvalidCode ran
  | attnWrite value | attnMaskWrite value | registerWrite target value | messageSignallingChange enabled =>
    exact (onlyIn_setWindow s _).of_next ran
  | frameLoRead => exact ((onlyIn_setWindow s _).comp (onlyIn_setFtg _ _)).of_next ran
  | hostWindowAccess access => exact onlyIn_hostWindowAccess ran
  | grantDecision => exact (onlyIn_grantDecision s).of_next ran
  | frameStart => exact (onlyIn_dryEdge s (onlyIn_frameStart s) (by decide)).of_next ran
  | waitLimitSkip record => exact (onlyIn_dryEdge s (onlyIn_waitLimitSkip record s) (by decide)).of_next ran
  | commitDecision => exact (onlyIn_dryEdge s ((onlyIn_commitDecision s).mono (by decide)) (by decide)).of_next ran
  | linkReadReturn => exact (onlyIn_linkReturned s).of_next ran
  | graceExpired k | joinComplete k | lostTimeout k | absentIdentify k | trainingTimeout k =>
    exact (onlyIn_linkAhead _ k s).of_next ran
  | echo k tag => exact (onlyIn_takeEcho k tag s).of_next ran
  | descriptor k d => exact (onlyIn_takeDescriptor k d s).of_next ran
  | linkTakesPixel k => exact (onlyIn_linkTakesPixel k s).of_next ran
  | burstArrival k words => exact (onlyIn_burstArrives k words s).of_next ran
  | fetchBegin => exact (onlyIn_fetchBegin s).of_next ran
  | recordWordsArrived =>
    exact (onlyIn_dryEdge s ((onlyIn_recordArrived s).mono (by decide)) (by decide)).of_next ran
  | departingWriteReceived =>
    exact (onlyIn_dryEdge s ((onlyIn_receiveDeparting s).mono (by decide)) (by decide)).of_next ran
  | holdFaultReceived => exact (onlyIn_receiveHoldFault s).of_next ran
  | handoffWriteReceived => exact (onlyIn_receiveHandoff s).of_next ran
  | outcomeWriteLanded => exact (onlyIn_outcomeLanded s).of_next ran
  | faultRecordLanded => exact (onlyIn_faultLanded s).of_next ran
  | refreshLanded => exact (onlyIn_refreshLanded s).of_next ran
  | eventInputActive event => exact (onlyIn_inputActive event s).of_next ran
  | eventInputInactive event => exact (onlyIn_inputInactive event s).of_next ran
  | filterWidthReached event => exact (onlyIn_widthReached event s).of_next ran
  | ambientPoll => exact (onlyIn_ite (onlyIn_setAmbient s _) (.refl _ s)).of_next ran
  | sensorReading first second => exact (onlyIn_ite (onlyIn_takeReading _ s) (.refl _ s)).of_next ran
  | sensorReadFailure => exact (onlyIn_ite (onlyIn_failReading s) (.refl _ s)).of_next ran
  | byteWriteDone => exact (onlyIn_byteWritten s).of_next ran
  | byteWriteFailed => exact (onlyIn_byteFailed s).of_next ran

/-! ## Show memory (R128) -/

theorem mem_notin_parts {c : Instr} (other : c ≠ .grantDecision) : Part.mem ∉ parts c := by
  cases c with
  | grantDecision => exact absurd rfl other
  | _ => simp [parts]

/-- Settles O2: show memory is a part of GRANT_DECISION alone. -/
theorem showMemoryChangesAtGrantsOnly : Obligations.ShowMemoryChangesAtGrantsOnly := by
  intro c s t other ran a
  rw [(onlyIn_exec ran).mem (mem_notin_parts other)]

theorem AccessPart.wf_perform {m : List Host.Cell} (p : AccessPart) (h : Memory.wf m = true) :
    Memory.wf (p.perform m).2 = true := by
  cases p with
  | read a n => exact h
  | write a d => exact Memory.wf_writeBytes a d h

theorem QueueItem.wf_perform {m : List Host.Cell} (page : Nat) (superseded : Bool) (x : QueueItem)
    (h : Memory.wf m = true) : Memory.wf (x.perform page superseded m).2 = true := by
  cases x with
  | outcome w granted =>
    simp only [QueueItem.perform]
    exact w.wf_perform h
  | fault f granted =>
    simp only [QueueItem.perform]
    exact Memory.wf_writeRuns page _ h
  | refresh g n tag result =>
    simp only [QueueItem.perform]
    exact Memory.wf_writeBytes _ _ h

theorem wf_grantHost {s : State} (h : Memory.wf s.mem = true) : Memory.wf (grantHost s).mem = true := by
  unfold grantHost
  split
  · exact h
  · split
    · rw [(onlyIn_countCarried _).mem]
      exact h
    · dsimp only
      split
      · rw [(onlyIn_countCarried _).mem]
        exact AccessPart.wf_perform _ h
      · exact AccessPart.wf_perform _ h

theorem wf_grantReport (i : Nat) {s : State} (h : Memory.wf s.mem = true) : Memory.wf (grantReport i s).mem = true := by
  unfold grantReport
  split
  · exact h
  · exact QueueItem.wf_perform _ _ _ h

theorem wf_grantDecision {s : State} (h : Memory.wf s.mem = true) : Memory.wf (grantDecision s).mem = true := by
  unfold grantDecision
  split
  · rw [(onlyIn_grantEngine _ _ s).mem]
    exact h
  · split
    · exact wf_grantHost h
    · split
      · exact wf_grantReport _ h
      · rw [(onlyIn_grantPlace4 s).mem]
        exact h

theorem wf_exec {c : Instr} {s t : State} (ran : exec c s = .next t) (h : Memory.wf s.mem = true) :
    Memory.wf t.mem = true := by
  by_cases grant : c = .grantDecision
  · subst grant
    cases ran
    exact wf_grantDecision h
  · rw [(onlyIn_exec ran).mem (mem_notin_parts grant)]
    exact h

/-- A step that goes on idles, or runs the command at the front of the queue on the state with the rest. -/
theorem step_cases {s t : State} (h : step s = .next t) :
    (s.pending = [] ∧ t = s) ∨ ∃ c rest, s.pending = c :: rest ∧ exec c (s.setPending rest) = .next t := by
  unfold step at h
  split at h
  case h_1 empty => exact .inl ⟨empty, (Host.Outcome.next.inj h).symm⟩
  case h_2 c rest front => exact .inr ⟨c, rest, front, h⟩

/-- What every command keeps, and does not speak of the queue of commands, every step keeps. -/
theorem step_keeps {P : State → Prop} (exec_keeps : ∀ {c : Instr} {s t : State}, P s → exec c s = .next t → P t)
    (setPending : ∀ {s : State} {q : List Instr}, P s → P (s.setPending q)) {s t : State} (h : P s)
    (ran : step s = .next t) : P t := by
  obtain ⟨-, rfl⟩ | ⟨c, rest, -, ran⟩ := step_cases ran
  · exact h
  · exact exec_keeps (setPending h) ran

/-- Settles O3: of the grants, the host's and the Report Writer's bursts write runs of bytes. -/
theorem memoryStaysCanonical : Obligations.MemoryStaysCanonical := by
  intro s t h ran
  refine step_keeps (P := fun s => Memory.wf s.mem = true) ?commands ?queue h ran
  case commands => exact fun h ran => wf_exec ran h
  case queue => exact fun h => h

/-! ## Attention (R180, R185) -/

/-- Settles O12: but for the writes of the two registers, a command raises causes or changes signalling alone. -/
theorem attentionFlagsStaySet : Obligations.AttentionFlagsStaySet := by
  intro c s t notReset ran
  cases sets : setsAttention c with
  | false => exact ⟨fun _ => (attentionRises_exec sets ran).attn, fun _ => (attentionRises_exec sets ran).mask⟩
  | true =>
    cases c with
    | deviceReset cut => exact absurd rfl (notReset cut)
    | attnWrite value =>
      refine ⟨fun other => absurd rfl (other value), fun _ => ?_⟩
      cases ran
      exact Window.signal_mask _ _
    | attnMaskWrite value =>
      refine ⟨fun _ => ?_, fun other => absurd rfl (other value)⟩
      cases ran
      exact (congrArg _ (Window.signal_attn _ _)).trans (BitVec.and_self)
    | messageSignallingChange enabled =>
      cases ran
      exact ⟨fun _ => BitVec.and_self, fun _ => rfl⟩
    | _ => cases sets

end Sys2Proof.Machine
end

section
/-! The commands of the register window (chapter 11): how they are judged, refused and recorded, and what START, REDIRECT,
RESUME, WALL_RESET, INVALIDATE_STORE and ADOPT_PROFILE do when taken. -/

set_option Elab.async false

namespace Sys2Proof.Machine

/-! ## Attention registers (R180, R181) -/

/-- No message goes out where the set of flags both set and enabled does not leave the empty one. -/
theorem Window.signal_of_calm {w v : Window} (h : w.attending = false → v.attending = false) : w.signal v = v := by
  cases before : w.attending with
  | true => simp [Window.signal, before]
  | false => simp [Window.signal, h before]

/-- Clearing flags does not begin a transition. -/
theorem Window.attending_of_cleared {w : Window} (kept : BitVec 9) (h : w.attending = false) :
    ({ w with attn := w.attn &&& kept } : Window).attending = false := by
  have none : w.attn &&& w.mask = 0#9 := by simpa [Window.attending] using h
  have fewer : w.attn &&& kept &&& w.mask = 0#9 := by
    rw [BitVec.and_assoc, BitVec.and_comm kept, ← BitVec.and_assoc, none, BitVec.zero_and]
  simp [Window.attending, fewer]

theorem exec_attnWrite (v : BitVec 32) (s : State) :
    exec (.attnWrite v) s =
      .next (s.setWindow { s.window with attn := s.window.attn &&& ~~~(v.extractLsb' 0 9) }) := by
  rw [← Window.signal_of_calm (Window.attending_of_cleared (w := s.window) (~~~(v.extractLsb' 0 9)))]
  rfl

/-- Settles O33. -/
theorem attentionRegistersTakeWrites : Obligations.AttentionRegistersTakeWrites := by
  refine ⟨fun v s => ⟨_, exec_attnWrite v s, onlyIn_setWindow s _, rfl, fun i small => ?bit⟩,
    fun v s => ⟨_, rfl, onlyIn_setWindow s _, Window.signal_eq _ _⟩, fun b s => ⟨_, rfl, onlyIn_setWindow s _, rfl⟩⟩
  simp [small]

/-! ## Judging and recording (R176, R177) -/

section
variable {c : Command} {s : State}

theorem judge_loading (h : s.window.wall = .loading) : judge c s = some .refusedState := if_pos h

theorem judge_locked (loaded : s.window.wall ≠ .loading) (h : s.window.wall ≠ .awaitProfile) :
    judge .adoptProfile s = some .refusedLocked := by
  simp [judge, loaded, h]

/-- Past LOADING and a locked profile the wall state and the follower decide first. -/
theorem judge_disallowed (other : c ≠ .adoptProfile) (h : commandAllowed c s = false) :
    judge c s = some .refusedState := by
  simp [judge, other, h]

theorem wall_ne_loading_of_allowed (h : commandAllowed c s = true) : s.window.wall ≠ .loading := by
  intro loading
  cases c <;> simp [commandAllowed, loading] at h

theorem awaitProfile_of_allowed (h : commandAllowed c s = true) : ¬ (c = .adoptProfile ∧ s.window.wall ≠ .awaitProfile) := by
  rintro ⟨rfl, locked⟩
  exact locked (of_decide_eq_true h)

/-- A command its wall state allows is refused while another is busy. -/
theorem judge_busy (allowed : commandAllowed c s = true) (other : c ≠ .wallReset) (busy : s.window.busy = true) :
    judge c s = some .refusedBusy := by
  simp [judge, wall_ne_loading_of_allowed allowed, awaitProfile_of_allowed allowed, allowed, other, busy]

theorem judge_job (allowed : commandAllowed .invalidateStore s = true) (job : s.store.job.isSome = true) :
    judge .invalidateStore s = some .refusedBusy := by
  have loaded := wall_ne_loading_of_allowed allowed
  simp [judge, loaded, allowed, job]

theorem judge_taken (allowed : commandAllowed c s = true) (idle : c = .wallReset ∨ s.window.busy = false)
    (slot : c = .invalidateStore → s.store.job = none) : judge c s = none := by
  have noJob : ¬ (c = .invalidateStore ∧ s.store.job.isSome = true) := fun ⟨hc, job⟩ => by simp [slot hc] at job
  have notBusy : ¬ (c ≠ .wallReset ∧ s.window.busy = true) := fun ⟨hc, busy⟩ => by simp [hc, busy] at idle
  simp only [judge, wall_ne_loading_of_allowed allowed, awaitProfile_of_allowed allowed, allowed, noJob, notBusy,
    if_false, Bool.not_true, Bool.false_eq_true]

end


theorem exec_of_commandOf {i : Instr} {c : Command} (h : commandOf i = some c) (s : State) :
    ∃ take, (exec i s = .next (command c take s) ∨ exec i s = .next (dryEdge s (command c take s))) := by
  cases i <;> simp only [commandOf, Option.some.injEq, reduceCtorEq] at h <;> subst h
  case resume => exact ⟨_, .inr rfl⟩
  all_goals exact ⟨_, .inl rfl⟩

/-- A command that changes the CMD record alone starts no condition of DRY. -/
theorem dryEdge_of_followed {s t : State} (follower : t.follower = s.follower) (scheduler : t.scheduler = s.scheduler) :
    dryEdge s t = t := by
  have same : t.dry = s.dry := by rw [State.dry, State.dry, follower, scheduler]
  simp [dryEdge, same]

theorem exec_refused {i : Instr} {c : Command} (h : commandOf i = some c) {s : State} {r : Result}
    (judged : judge c s = some r) : exec i s = .next (recordCommand c r s) := by
  obtain ⟨take, ran | ran⟩ := exec_of_commandOf h s
  · rw [ran, command_refused take judged]
  · rw [ran, command_refused take judged]
    exact congrArg _ (dryEdge_of_followed rfl rfl)

theorem judge_ne_accepted {c : Command} {s : State} {r : Result} (h : judge c s = some r) : r ≠ .accepted := by
  rintro rfl
  unfold judge at h
  split_ifs at h <;> cases h

/-- Settles O31. -/
theorem refusedCommandsChangeNothing : Obligations.RefusedCommandsChangeNothing := by
  intro i c s issued
  refine ⟨fun r judged => ⟨_, exec_refused issued judged, onlyIn_recordCommand c r s, ?record⟩, judge_loading, ?locked,
    ?awaiting, ?standby, ?showing, ?notHeld, ?stopping, ?adoptBusy, ?showingBusy, ?standbyBusy, ?job⟩
  case record => exact Window.record_of_not_accepted (judge_ne_accepted judged) _ _
  case locked =>
    rintro rfl loaded other
    exact judge_locked loaded other
  case awaiting =>
    intro wall other
    exact judge_disallowed other (by cases c <;> simp_all [commandAllowed])
  case standby =>
    rintro wall (rfl | rfl | rfl) <;> exact judge_disallowed (by decide) (by simp [commandAllowed, wall])
  case showing =>
    rintro wall (rfl | rfl) <;> exact judge_disallowed (by decide) (by simp [commandAllowed, wall])
  case notHeld =>
    rintro - rfl held
    exact judge_disallowed (by decide) (by simp [commandAllowed, held])
  case stopping =>
    intro wall other notReset
    exact judge_disallowed other (by cases c <;> simp_all [commandAllowed])
  case adoptBusy =>
    rintro wall rfl busy
    exact judge_busy (by simp [commandAllowed, wall]) (by decide) busy
  case showingBusy =>
    rintro wall (rfl | rfl | ⟨rfl, held⟩) busy
    · exact judge_busy (by simp [commandAllowed, wall]) (by decide) busy
    · exact judge_busy (by simp [commandAllowed, wall]) (by decide) busy
    · exact judge_busy (by simp [commandAllowed, wall, held]) (by decide) busy
  case standbyBusy =>
    rintro wall (rfl | rfl) busy <;> exact judge_busy (by simp [commandAllowed, wall]) (by decide) busy
  case job =>
    rintro wall rfl job
    exact judge_job (by simp [commandAllowed, wall]) job

/-! ## START, REDIRECT and RESUME (R34, R45, R46) -/

section
variable {a : Nat} {s : State}

theorem followFrom_good (good : GoodAddress a) :
    followFrom a s = s.setFollower { s.follower with state := .fetching, follow := a, reason := none, fetch := none } := by
  simp [followFrom, (badAddress_iff a).2 good]

theorem followFrom_bad (bad : ¬ GoodAddress a) :
    followFrom a s =
      reportHold (holdRecord s .address a (detailOf (a / 2 ^ 32))) (enterHold .address .record a s) := by
  simp [followFrom, badAddress_of_not_good bad]

theorem followFrom_bad_follower (bad : ¬ GoodAddress a) :
    (followFrom a s).follower =
      { state := .hold, follow := a, position := .record, reason := some .address, fetch := none } := by
  rw [followFrom_bad bad, (onlyIn_reportHold _ _).follower]
  rfl

theorem followFrom_bad_fault (bad : ¬ GoodAddress a) :
    HandedFault { kind := .address, hold := true, address := BitVec.ofNat 32 a, frame := s.now,
                  detail := BitVec.ofNat 64 (a / 2 ^ 32) } s (followFrom a s) := by
  rw [followFrom_bad bad]
  exact handedFault_reportHold _ rfl

end

/-- The halves of ARG that the fault record of a bad address carries (R188). -/
theorem addressFault_of_arg (arg : BitVec 64) (n : Nat) :
    ({ kind := .address, hold := true, address := BitVec.ofNat 32 arg.toNat, frame := n,
       detail := BitVec.ofNat 64 (arg.toNat / 2 ^ 32) } : FaultRecord) =
    { kind := .address, hold := true, address := arg.extractLsb' 0 32, frame := n, detail := arg >>> 32 } := by
  have low : BitVec.ofNat 32 arg.toNat = arg.extractLsb' 0 32 := rfl
  have high : BitVec.ofNat 64 (arg.toNat / 2 ^ 32) = arg >>> 32 := by
    refine BitVec.eq_of_toNat_eq ?_
    rw [BitVec.toNat_ushiftRight, Nat.shiftRight_eq_div_pow, BitVec.toNat_ofNat]
    omega
  rw [low, high]

/-- START taken with no command busy. -/
theorem takeStart_idle {s : State} (idle : s.window.busy = false) :
    takeStart s = followFrom s.window.arg.toNat
      ((s.setWindow { s.window with main := some ⟨2, .accepted⟩, side := none, wall := .showing }).setScheduler
        { s.scheduler with anchor := s.now, lastScene := none, lastFrame := none }) := by
  simp only [takeStart, recordCommand_idle _ _ idle]
  rfl

/-- Settles O25. -/
theorem startBeginsTheShowing : Obligations.StartBeginsTheShowing := by
  intro s wall idle
  have taken : judge .start s = none := judge_taken (by simp [commandAllowed, wall]) (.inr idle) (by simp)
  refine ⟨takeStart s, congrArg _ (command_taken _ taken), ?window, ?scheduler, onlyIn_takeStart s,
    fun good => ?good, fun bad => ?bad⟩
  case window => rw [takeStart_idle idle, (onlyIn_followFrom _ _).window]; rfl
  case scheduler => rw [takeStart_idle idle, (onlyIn_followFrom _ _).scheduler]; rfl
  case good =>
    rw [takeStart_idle idle, followFrom_good good]
    exact ⟨rfl, rfl⟩
  case bad =>
    rw [takeStart_idle idle]
    refine ⟨followFrom_bad_follower bad, ?_⟩
    rw [← addressFault_of_arg]
    exact followFrom_bad_fault bad

/-- What has been withdrawn is departing, or was so before (R75). -/
theorem withdrawAll_departing {s : State} {x : Entry} (h : x ∈ (withdrawAll s).scheduler.queue) :
    x.departing.isSome = true := by
  obtain ⟨e, -, -, departing⟩ := depart_left _ _ s x h
  rw [departing]
  cases e.departing <;> rfl

/-- Every entry has departed as it was departing before, or else withdrawn (R73, R75). -/
theorem withdrawAll_departed {s : State} (distinct : (s.scheduler.queue.map (·.cue.record)).Nodup) {e : Entry}
    (h : e ∈ s.scheduler.queue) : Departed e.cue.record (e.departing.getD .withdrawn) (withdrawAll s) := by
  obtain ⟨picked, before, -, -⟩ := depart_spec (fun _ => true) .withdrawn distinct
  cases departing : e.departing with
  | none => exact picked e h departing rfl
  | some d => exact before e h d departing

theorem Departed.mono {record : Nat} {d : Departure} {t u : State} (h : Departed record d t)
    (queue : u.scheduler.queue = t.scheduler.queue) (grown : t.report.queue ⊆ u.report.queue) : Departed record d u := by
  obtain stands | ⟨received, left⟩ := h
  · exact .inl (by rwa [queue])
  · exact .inr ⟨grown received, by rwa [queue]⟩

theorem receiveDeparting_report (s : State) :
    ∃ l, (receiveDeparting s).report = { s.report with queue := s.report.queue ++ l } := by
  obtain same | ⟨r, d, -, -, received⟩ := receiveDeparting_cases s
  · exact ⟨[], by rw [same, List.append_nil]⟩
  · refine ⟨[.outcome ⟨r, d.outcome⟩ false], ?_⟩
    rw [received, (onlyIn_leaveQueue _ _).report]
    rfl

theorem drainDeparting_report (n : Nat) (s : State) :
    ∃ l, (drainDeparting n s).report = { s.report with queue := s.report.queue ++ l } := by
  induction n generalizing s with
  | zero => exact ⟨[], by rw [List.append_nil]; rfl⟩
  | succ n ih =>
    obtain ⟨first, received⟩ := receiveDeparting_report s
    obtain ⟨others, drained⟩ := ih (receiveDeparting s)
    exact ⟨first ++ others, by rw [drainDeparting, drained, received, List.append_assoc]⟩

/-- Departures only add writes to the write queue. -/
theorem depart_report (pick : Entry → Bool) (why : Departure) (s : State) :
    ∃ l, (depart pick why s).report = { s.report with queue := s.report.queue ++ l } :=
  drainDeparting_report _ _

theorem HandedFault.queue_subset {f : FaultRecord} {s t : State} (h : HandedFault f s t) :
    s.report.queue ⊆ t.report.queue := by
  obtain ⟨queue, -⟩ | ⟨queue, -⟩ := h
  · rw [queue]
    exact List.subset_append_left _ _
  · rw [queue]
    exact List.Subset.refl _

theorem followFrom_queue_subset (a : Nat) (s : State) : s.report.queue ⊆ (followFrom a s).report.queue := by
  by_cases good : GoodAddress a
  · rw [followFrom_good good]
    exact List.Subset.refl _
  · exact (followFrom_bad_fault good).queue_subset

/-- REDIRECT taken with no command busy: what is left to follow from ARG. -/
theorem takeRedirect_idle {s : State} (idle : s.window.busy = false) :
    takeRedirect s = followFrom s.window.arg.toNat (setAnchor (withdrawAll (endAttempt (endFollowing
      (s.setWindow { s.window with main := some ⟨3, .accepted⟩, side := none }))))) := by
  simp only [takeRedirect, recordCommand_idle _ _ idle]
  rfl

/-- Settles O26: the withdrawal finds the follower idle, so that no entry that leaves wakes it. -/
theorem redirectWithdrawsAndFollows : Obligations.RedirectWithdrawsAndFollows := by
  intro s inv wall idle
  have taken : judge .redirect s = none := judge_taken (by simp [commandAllowed, wall]) (.inr idle) (by simp)
  refine ⟨takeRedirect s, congrArg _ (command_taken _ taken), ?_⟩
  rw [takeRedirect_idle idle]
  set u := endAttempt (endFollowing (s.setWindow { s.window with main := some ⟨3, .accepted⟩, side := none }))
  have kept := onlyIn_withdrawAll u
  have follower : (withdrawAll u).follower = { s.follower with state := .idle, reason := none, fetch := none } :=
    depart_follower _ _ (fun h => nomatch h) (fun h => nomatch h)
  have now : (setAnchor (withdrawAll u)).now = s.now := congrArg Ftg.frame kept.ftg
  set v := setAnchor (withdrawAll u)
  have followed := onlyIn_followFrom s.window.arg.toNat v
  refine ⟨?window, ?commit, ?anchor, ?lastScene, ?lastFrame, ?departing, ?departed, fun good => ?good, fun bad => ?bad,
    ?parts⟩
  case window => exact followed.window.trans kept.window
  case commit => exact followed.commit.trans kept.commit
  case anchor => exact (congrArg Scheduler.anchor followed.scheduler).trans (congrArg Ftg.frame kept.ftg)
  case lastScene => exact congrArg Scheduler.lastScene followed.scheduler
  case lastFrame => exact congrArg Scheduler.lastFrame followed.scheduler
  case departing =>
    rw [followed.scheduler]
    exact fun _ => withdrawAll_departing
  case departed =>
    intro e h
    have queue : (followFrom s.window.arg.toNat v).scheduler.queue = (withdrawAll u).scheduler.queue :=
      (congrArg Scheduler.queue followed.scheduler).trans (rfl : v.scheduler.queue = _)
    exact (withdrawAll_departed (s := u) inv.distinct h).mono queue (followFrom_queue_subset _ v)
  case good =>
    rw [followFrom_good good]
    exact congrArg (fun f : Follower => { f with state := .fetching, follow := s.window.arg.toNat, reason := none, fetch := none })
      follower
  case bad =>
    refine ⟨followFrom_bad_follower bad, v, ?faults, ?handed⟩
    · obtain ⟨l, report⟩ := depart_report (fun _ => true) .withdrawn u
      have waiting : (withdrawAll u).report.holdFaults = u.report.holdFaults := by rw [withdrawAll, report]
      exact waiting
    · rw [← addressFault_of_arg, ← now]
      exact followFrom_bad_fault bad
  case parts =>
    have := onlyIn_takeRedirect s
    rwa [takeRedirect_idle idle] at this

/-- RESUME taken with no command busy. -/
theorem takeResume_idle {s : State} (idle : s.window.busy = false) :
    takeResume s = resumeFollowing (s.setWindow { s.window with main := some ⟨4, .accepted⟩, side := none }) := by
  simp only [takeResume, recordCommand_idle _ _ idle]
  rfl

section
variable {s : State}

theorem resumeFollowing_link (h : s.follower.position = .link) :
    resumeFollowing s = s.setFollower { s.follower with state := .awaitLink, reason := none, fetch := none } := by
  simp [resumeFollowing, h]

theorem resumeFollowing_record (h : s.follower.position = .record) (other : s.follower.reason ≠ some .address) :
    resumeFollowing s = s.setFollower { s.follower with state := .fetching, reason := none, fetch := none } := by
  unfold resumeFollowing
  split <;> simp_all

theorem resumeFollowing_address (h : s.follower.position = .record) (address : s.follower.reason = some .address) :
    resumeFollowing s = followFrom s.follower.follow s := by
  simp [resumeFollowing, h, address]

end

/-- Settles O27: one case for each of the four of R45. -/
theorem resumeLeavesTheHold : Obligations.ResumeLeavesTheHold := by
  intro s wall held idle
  have taken : judge .resume s = none := judge_taken (by simp [commandAllowed, wall, held]) (.inr idle) (by simp)
  have kept := onlyIn_dryEdge_after s (takeResume s)
  refine ⟨dryEdge s (takeResume s), ?ran, ?main, ?side, ?wall, onlyIn_dryEdge s (onlyIn_takeResume s) (by decide), ?_⟩
  case ran => exact congrArg (fun t => Host.Outcome.next (dryEdge s t)) (command_taken _ taken)
  case main =>
    obtain same | raised := dryEdge_eq s (takeResume s)
    · rw [same, takeResume_idle idle, (onlyIn_resumeFollowing _).window]; rfl
    · rw [raised, raise_main, takeResume_idle idle, (onlyIn_resumeFollowing _).window]; rfl
  case side =>
    obtain same | raised := dryEdge_eq s (takeResume s)
    · rw [same, takeResume_idle idle, (onlyIn_resumeFollowing _).window]; rfl
    · rw [raised, raise_side, takeResume_idle idle, (onlyIn_resumeFollowing _).window]; rfl
  case wall =>
    obtain same | raised := dryEdge_eq s (takeResume s)
    · rw [same, takeResume_idle idle, (onlyIn_resumeFollowing _).window]; exact wall
    · rw [raised, raise_wall, takeResume_idle idle, (onlyIn_resumeFollowing _).window]; exact wall
  rw [takeResume_idle idle] at kept ⊢
  set u := s.setWindow { s.window with main := some ⟨4, .accepted⟩, side := none }
  rw [kept.follower]
  refine ⟨fun position => ⟨?link, fun empty => ?dry⟩, fun position other => ?record, fun position address good => ?good,
    fun position address bad => ⟨?badFollower, ?badFault⟩⟩
  case link => rw [resumeFollowing_link (s := u) position]; rfl
  case dry =>
    refine flag_dryEdge (by simp [State.dry, held]) ?_
    rw [resumeFollowing_link (s := u) position]
    have empty' : u.scheduler.queue = [] := empty
    simp [State.dry, empty']
  case record => rw [resumeFollowing_record (s := u) position other]; rfl
  case good => rw [resumeFollowing_address (s := u) position address, followFrom_good (a := u.follower.follow) good]; rfl
  case badFollower =>
    rw [resumeFollowing_address (s := u) position address, followFrom_bad_follower (a := u.follower.follow) bad]
    simp only [held, position, address]
    rfl
  case badFault =>
    rw [HandedFault, kept.report, resumeFollowing_address (s := u) position address]
    exact followFrom_bad_fault (s := u) bad

end Sys2Proof.Machine
end

section
/-! STOP, WALL_RESET, INVALIDATE_STORE and ADOPT_PROFILE taken (R96, R168, R173, R179), and the pending switch lists they
write. -/

set_option Elab.async false

namespace Sys2Proof.Machine

/-! ## What a change elsewhere leaves of a tile -/

theorem OnlyIn.prof {ps : List Part} {s t : State} (h : OnlyIn ps s t) (hp : Part.profile ∉ ps := by decide) :
    t.prof = s.prof := by
  rw [State.prof, State.prof, h.profile hp]

theorem OnlyIn.horizon {ps : List Part} {s t : State} (h : OnlyIn ps s t) (hp : Part.profile ∉ ps := by decide) :
    t.horizon = s.horizon := by
  rw [State.horizon, State.horizon, h.prof hp]

theorem OnlyIn.now {ps : List Part} {s t : State} (h : OnlyIn ps s t) (hp : Part.ftg ∉ ps := by decide) :
    t.now = s.now := congrArg Ftg.frame (h.ftg hp)

theorem OnlyIn.tile {ps : List Part} {s t : State} (h : OnlyIn ps s t) (k : Nat) (hp : Part.tiles ∉ ps := by decide) :
    t.tile k = s.tile k := State.tile_of_tiles (h.tiles hp) k

/-- A fold that changes each tile by a function of it and of the profile changes every tile it reaches so. -/
theorem forTiles_updTile_tile {g : Profile → Tile → Tile} {s : State} {n k : Nat} (reached : k < n)
    (there : k < s.tiles.length) :
    (forTiles n (fun k u => u.updTile k (g u.prof)) s).tile k = g s.prof (s.tile k) := by
  have keeps (j : Nat) (u : State) : OtherTilesKept j u (u.updTile j (g u.prof)) := otherTilesKept_updTile j u _
  have before := onlyIn_forTiles k _ (fun j u => onlyIn_updTile j (g u.prof) u) s
  rw [forTiles_tile keeps s reached, State.tile_updTile_same _ (by rwa [forTiles_length keeps]),
    forTiles_tile_of_le keeps s le_rfl, before.prof]

/-- The tile with a switch of a visible frame in its pending list (R86, R87). -/
def Tile.placed (visible : Nat) (body : SwitchBody) (p : Profile) (t : Tile) : Tile :=
  { t with switches := insertSwitch ⟨visible - (t.link.latency.getD p.lmax), body⟩ t.switches }

theorem placeSwitch_eq (k visible : Nat) (body : SwitchBody) (s : State) :
    placeSwitch k visible body s = s.updTile k (Tile.placed visible body s.prof) := rfl

theorem forTiles_placeSwitch_tile {n k : Nat} (visible : Nat) (body : SwitchBody) {s : State} (reached : k < n)
    (there : k < s.tiles.length) :
    (forTiles n (fun k u => placeSwitch k visible body u) s).tile k = (s.tile k).placed visible body s.prof :=
  forTiles_updTile_tile (g := Tile.placed visible body) reached there

theorem forTiles_placeSwitch_tile_of_le {n k : Nat} (visible : Nat) (body : SwitchBody) (s : State) (past : n ≤ k) :
    (forTiles n (fun k u => placeSwitch k visible body u) s).tile k = s.tile k :=
  forTiles_tile_of_le (fun j u => otherTilesKept_placeSwitch j visible body u) s past

theorem forTiles_placeSwitch_length (n visible : Nat) (body : SwitchBody) (s : State) :
    (forTiles n (fun k u => placeSwitch k visible body u) s).tiles.length = s.tiles.length :=
  forTiles_length (fun j u => otherTilesKept_placeSwitch j visible body u) n s

/-! ## INVALIDATE_STORE (R173) -/

/-- Settles O30. -/
theorem invalidateStoreWritesTheMarker : Obligations.InvalidateStoreWritesTheMarker := by
  intro s wall idle slot
  have taken : judge .invalidateStore s = none :=
    judge_taken (by simp [commandAllowed, wall]) (.inr idle) (fun _ => slot)
  have recorded := recordCommand_idle .invalidateStore .busy idle
  refine ⟨takeInvalidate s, congrArg _ (command_taken _ taken), ?_⟩
  rw [takeInvalidate, recorded]
  exact ⟨rfl, rfl, ((onlyIn_setWindow s _).mono (by decide)).trans ((onlyIn_setStore _ _).mono (by decide))⟩

/-! ## ADOPT_PROFILE up to its read (R168) -/

theorem takeAdopt_bad {persist : Bool} {s : State} (idle : s.window.busy = false)
    (bad : ¬ GoodAddress s.window.arg.toNat) :
    takeAdopt persist s = s.setWindow { s.window with main := some ⟨1, .refusedInvalid⟩, side := none } := by
  simp [takeAdopt, recordCommand_idle _ _ idle, badAddress_of_not_good bad, Window.finish, Command.code]

theorem takeAdopt_good {persist : Bool} {s : State} (idle : s.window.busy = false)
    (good : GoodAddress s.window.arg.toNat) :
    takeAdopt persist s = s.setWindow { s.window with
      main := some ⟨1, .busy⟩, side := none,
      adoption := some ⟨persist, s.window.arg, .behindHost (s.port.accesses.length + s.port.backlog.length)⟩ } := by
  simp [takeAdopt, recordCommand_idle _ _ idle, (badAddress_iff _).2 good, Command.code]

/-- Settles O23. -/
theorem adoptProfileWaitsToRead : Obligations.AdoptProfileWaitsToRead := by
  refine ⟨fun persist s wall idle => ?taken, fun a s adopting carried => ?issued, fun s waits => ?kept⟩
  case taken =>
    have taken : judge .adoptProfile s = none := judge_taken (by simp [commandAllowed, wall]) (.inr idle) (by simp)
    refine ⟨takeAdopt persist s, congrArg _ (command_taken _ taken), onlyIn_takeAdopt persist s, fun bad => ?_,
      fun good => ?_⟩
    · rw [takeAdopt_bad idle bad]; rfl
    · rw [takeAdopt_good idle good]; rfl
  case issued =>
    refine ⟨profileReadIssue s, rfl, onlyIn_profileReadIssue s, ?_⟩
    simp [profileReadIssue, adopting, carried]
  case kept =>
    refine congrArg Host.Outcome.next ?_
    unfold profileReadIssue
    split
    · rename_i a adopting
      exact if_neg (waits a adopting)
    · rfl

/-! ## WALL_RESET (R179) -/

/-- A set change handed on is placed in every list where each has room (R89). -/
theorem requestLevel_placed (set : LevelSet) {s : State} (room : ∀ k, k < s.prof.tiles → s.pendingRoom k = true) :
    requestLevel set s = forTiles s.prof.tiles (fun k u => placeSwitch k (s.now + s.horizon) (.level set) u)
      (s.setCommit { s.commit with levelRequest := none, commitCount := s.commit.commitCount + 1 }) := by
  have all : (List.range s.prof.tiles).all
      (s.setCommit { s.commit with levelRequest := some ⟨set, s.now + s.horizon⟩ }).pendingRoom = true :=
    List.all_eq_true.2 fun k hk => room k (List.mem_range.1 hk)
  exact if_pos all

/-- Without room in each list it waits (R89). -/
theorem requestLevel_waits (set : LevelSet) {s : State} (full : ∃ k, k < s.prof.tiles ∧ s.pendingRoom k = false) :
    requestLevel set s = s.setCommit { s.commit with levelRequest := some ⟨set, s.now + s.horizon⟩ } := by
  obtain ⟨k, small, noRoom⟩ := full
  refine if_neg fun all => ?_
  have room : s.pendingRoom k = true := List.all_eq_true.1 all k (List.mem_range.2 small)
  rw [noRoom] at room
  cases room

/-- The tile with nothing pending (R98). -/
def Tile.emptied (t : Tile) : Tile := { t with switches := [], stopAt := none }

/-- What WALL_RESET has cleared before it requests the Ambient Unit's set (R179). -/
def resetCleared (s : State) : State :=
  ((((((s.setWindow { s.window.record 6 .accepted with wall := .standby, resetTaken := true }).setFollower
    { s.follower with state := .idle, position := .record, reason := none, fetch := none }).setScheduler
    { s.scheduler with queue := [], lastScene := none, lastFrame := none }).setCommit
    { s.commit with showing := [], due := [], attempt := none, stopFrame := none }).setTiles
    (s.tiles.map Tile.emptied)).setFtg { s.ftg with clockSets := [] })

theorem resetCleared_tile {s : State} {k : Nat} (there : k < s.tiles.length) :
    (resetCleared s).tile k = (s.tile k).emptied := by
  have hk : k < (s.tiles.map Tile.emptied).length := by simpa using there
  have : (s.tiles.map Tile.emptied).getD k .reset = (s.tiles.getD k .reset).emptied := by
    simp [there]
  exact this

theorem resetCleared_room (s : State) (k : Nat) : (resetCleared s).pendingRoom k = true := by
  have none : ((resetCleared s).tile k).switches = [] := by
    by_cases there : k < s.tiles.length
    · rw [resetCleared_tile there]; rfl
    · rw [State.tile_of_length_le (by simpa [resetCleared] using there)]; rfl
  simp [State.pendingRoom, none, Config.pendingDepth]

/-- WALL_RESET takes the main record unless a command other than STOP is busy (R176). -/
theorem Window.record_wallReset (w : Window) :
    w.record 6 .accepted = { w with
      main := if w.busy = true ∧ w.stopBusy = false then w.main else some ⟨6, .accepted⟩
      side := if w.busy = true ∧ w.stopBusy = false then some ⟨6, .accepted⟩ else none } := by
  unfold Window.record
  cases w.busy <;> cases w.stopBusy <;> rfl

theorem takeWallReset_requests (s : State) : takeWallReset s = requestLevel s.ambient.level (resetCleared s) := rfl

/-- Every list being empty then, the level switches are placed at once. -/
theorem takeWallReset_eq (s : State) :
    takeWallReset s = forTiles s.prof.tiles
      (fun k u => placeSwitch k (s.now + s.horizon) (.level s.ambient.level) u)
      ((resetCleared s).setCommit { (resetCleared s).commit with
        levelRequest := none, commitCount := (resetCleared s).commit.commitCount + 1 }) := by
  have prof : (resetCleared s).prof = s.prof := rfl
  have now : (resetCleared s).now = s.now := rfl
  have horizon : (resetCleared s).horizon = s.horizon := rfl
  rw [takeWallReset_requests, requestLevel_placed _ fun k _ => resetCleared_room s k, prof, now, horizon]

/-- Settles O29. -/
theorem wallResetClearsTheShowing : Obligations.WallResetClearsTheShowing := by
  intro s wall
  have taken : judge .wallReset s = none := judge_taken (by simpa [commandAllowed] using wall) (.inl rfl) (by simp)
  refine ⟨takeWallReset s, congrArg _ (command_taken _ taken), ?_⟩
  have parts := onlyIn_takeWallReset s
  rw [takeWallReset_eq] at parts ⊢
  set u := (resetCleared s).setCommit { (resetCleared s).commit with
    levelRequest := none, commitCount := (resetCleared s).commit.commitCount + 1 }
  have kept := onlyIn_forTiles s.prof.tiles _
    (fun k u => onlyIn_placeSwitch k (s.now + s.horizon) (.level s.ambient.level) u) u
  have window : u.window = { s.window.record 6 .accepted with wall := .standby, resetTaken := true } := rfl
  refine ⟨kept.window.trans ?window, kept.follower, kept.scheduler, kept.ftg, congrArg CommitUnit.showing kept.commit,
    congrArg CommitUnit.due kept.commit, congrArg CommitUnit.attempt kept.commit,
    congrArg CommitUnit.stopFrame kept.commit, (congrArg CommitUnit.handoff kept.commit).trans rfl,
    congrArg CommitUnit.levelRequest kept.commit, ?length, fun k there => ?tile, parts.mono (by decide)⟩
  case window => rw [window, Window.record_wallReset]
  case length => exact (forTiles_placeSwitch_length ..).trans (List.length_map ..)
  case tile =>
    have thereU : k < u.tiles.length := by
      rw [show u.tiles = s.tiles.map Tile.emptied from rfl, List.length_map]
      exact there
    have cleared : u.tile k = (s.tile k).emptied := resetCleared_tile there
    by_cases small : k < s.prof.tiles
    · rw [if_pos small, forTiles_placeSwitch_tile _ _ small thereU, cleared]
      rfl
    · rw [if_neg small, forTiles_placeSwitch_tile_of_le _ _ u (Nat.le_of_not_lt small), cleared]
      rfl

/-! ## STOP (R96) -/

/-- The greatest of a start value and one more than each V of a list of entries. -/
theorem foldl_visible_spec (l : List ShowEntry) (m : Nat) :
    let vs := l.foldl (fun m e => max m (e.visible + 1)) m
    m ≤ vs ∧ (∀ e ∈ l, e.visible < vs) ∧ (vs = m ∨ ∃ e ∈ l, vs = e.visible + 1) := by
  induction l generalizing m with
  | nil => exact ⟨le_rfl, fun _ h => absurd h List.not_mem_nil, .inl rfl⟩
  | cons x rest ih =>
    obtain ⟨above, all, attained⟩ := ih (max m (x.visible + 1))
    rw [List.foldl_cons]
    set vs := rest.foldl (fun m e => max m (e.visible + 1)) (max m (x.visible + 1))
    refine ⟨by omega, ?all, ?attained⟩
    case all =>
      rintro e (_ | ⟨_, h⟩)
      · omega
      · exact all e h
    case attained =>
      obtain same | ⟨e, h, eq⟩ := attained
      · obtain hm | hx : max m (x.visible + 1) = m ∨ max m (x.visible + 1) = x.visible + 1 := by omega
        · exact .inl (same.trans hm)
        · exact .inr ⟨x, List.mem_cons_self, same.trans hx⟩
      · exact .inr ⟨e, List.mem_cons_of_mem _ h, eq⟩

/-- The tile with its stop switch placed for a stop frame (R96). -/
def Tile.stopping (vs : Nat) (p : Profile) (t : Tile) : Tile :=
  { t with stopAt := some (vs - (t.link.latency.getD p.lmax)) }

/-- What STOP has ended and withdrawn before it places the stop switches. -/
def stopWithdrawn (s : State) : State :=
  withdrawAll (endAttempt (endFollowing (s.setWindow { s.window with main := some ⟨5, .busy⟩, side := none })))

/-- The stop switches placed in the tiles of the profile. -/
def stopPlaced (vs : Nat) (u : State) : State :=
  forTiles u.prof.tiles (fun k u => u.updTile k (Tile.stopping vs u.prof)) u

theorem takeStopCommand_idle {s : State} (idle : s.window.busy = false) :
    takeStopCommand s =
      (((stopPlaced (stopWithdrawn s).stopFrameOf (stopWithdrawn s)).setCommit
        { (stopPlaced (stopWithdrawn s).stopFrameOf (stopWithdrawn s)).commit with
          stopFrame := some (stopWithdrawn s).stopFrameOf }).setWindow
        { (stopPlaced (stopWithdrawn s).stopFrameOf (stopWithdrawn s)).window with wall := .stopping }) := by
  simp only [takeStopCommand, recordCommand_idle _ _ idle]
  rfl

theorem stopWithdrawn_follower (s : State) :
    (stopWithdrawn s).follower = { s.follower with state := .idle, reason := none, fetch := none } :=
  depart_follower _ _ (fun h => nomatch h) (fun h => nomatch h)

theorem stopPlaced_tile (vs : Nat) (u : State) {k : Nat} (there : k < u.tiles.length) :
    (stopPlaced vs u).tile k = if k < u.prof.tiles then (u.tile k).stopping vs u.prof else u.tile k := by
  by_cases small : k < u.prof.tiles
  · rw [if_pos small, stopPlaced, forTiles_updTile_tile (g := Tile.stopping vs) small there]
  · rw [if_neg small, stopPlaced, forTiles_tile_of_le (fun j u => otherTilesKept_updTile j u _) _ (Nat.le_of_not_lt small)]

theorem stopPlaced_length (vs : Nat) (u : State) : (stopPlaced vs u).tiles.length = u.tiles.length :=
  forTiles_length (fun j u => otherTilesKept_updTile j u _) _ u

theorem onlyIn_stopPlaced (vs : Nat) (u : State) : OnlyIn [.tiles] u (stopPlaced vs u) :=
  onlyIn_forTiles _ _ (fun j u => onlyIn_updTile j _ u) u

/-- STOP taken with no command busy (R47, R73, R76, R96). -/
theorem stopTaken {s : State} (wall : s.window.wall = .showing) (idle : s.window.busy = false) :
    ∃ t vs, exec .stop s = .next t ∧ t.commit = { s.commit with attempt := none, stopFrame := some vs } ∧
      t.window = { s.window with main := some ⟨5, .busy⟩, side := none, wall := .stopping } ∧
      s.now + s.horizon ≤ vs ∧ (∀ e ∈ s.commit.showing, e.visible < vs) ∧
      (vs = s.now + s.horizon ∨ ∃ e ∈ s.commit.showing, vs = e.visible + 1) ∧
      t.follower = { s.follower with state := .idle, reason := none, fetch := none } ∧
      (∀ e ∈ t.scheduler.queue, e.departing.isSome = true) ∧
      (LookAheadInv s → ∀ e ∈ s.scheduler.queue, Departed e.cue.record (e.departing.getD .withdrawn) t) ∧
      t.scheduler.anchor = s.scheduler.anchor ∧
      t.scheduler.lastScene = s.scheduler.lastScene ∧ t.scheduler.lastFrame = s.scheduler.lastFrame ∧
      t.tiles.length = s.tiles.length ∧
      (∀ k, k < s.tiles.length →
        t.tile k = if k < s.prof.tiles
          then { s.tile k with stopAt := some (vs - ((s.tile k).link.latency.getD s.prof.lmax)) } else s.tile k) ∧
      OnlyIn [.window, .follower, .commit, .scheduler, .report, .tiles] s t := by
  have taken : judge .stop s = none := judge_taken (by simp [commandAllowed, wall]) (.inr idle) (by simp)
  refine ⟨takeStopCommand s, (stopWithdrawn s).stopFrameOf, congrArg _ (command_taken _ taken), ?_⟩
  have parts := onlyIn_takeStopCommand s
  rw [takeStopCommand_idle idle] at parts ⊢
  set v := endAttempt (endFollowing (s.setWindow { s.window with main := some ⟨5, .busy⟩, side := none }))
  have withdrew : OnlyIn [.scheduler, .follower, .report] v (stopWithdrawn s) := onlyIn_withdrawAll v
  set u := stopWithdrawn s
  set vs := u.stopFrameOf
  have placed := onlyIn_stopPlaced vs u
  have scheduler : (stopPlaced vs u).scheduler = u.scheduler := placed.scheduler
  have anchored : u.scheduler = { v.scheduler with queue := u.scheduler.queue } := depart_anchor _ _ v
  have frame : vs = s.commit.showing.foldl (fun m e => max m (e.visible + 1)) (s.now + s.horizon) := by
    have showing : u.commit.showing = s.commit.showing := (congrArg CommitUnit.showing withdrew.commit).trans rfl
    have now : u.now = s.now := withdrew.now
    have horizon : u.horizon = s.horizon := withdrew.horizon
    simp only [vs, State.stopFrameOf, showing, now, horizon]
  obtain ⟨above, all, attained⟩ := foldl_visible_spec s.commit.showing (s.now + s.horizon)
  rw [← frame] at above all attained
  refine ⟨?commit, ?window, above, all, attained, placed.follower.trans (stopWithdrawn_follower s), ?departing, ?departed,
    ?anchor, ?lastScene, ?lastFrame, ?length, fun k there => ?tile, parts.mono (by decide)⟩
  case commit =>
    have commit := placed.commit.trans withdrew.commit
    exact congrArg (fun c : CommitUnit => { c with stopFrame := some vs }) commit
  case window =>
    have window := placed.window.trans withdrew.window
    exact congrArg (fun w : Window => { w with wall := .stopping }) window
  case departing =>
    show ∀ e ∈ (stopPlaced vs u).scheduler.queue, _
    rw [scheduler]
    exact fun _ => withdrawAll_departing
  case departed =>
    intro inv e h
    have gone : Departed e.cue.record (e.departing.getD .withdrawn) u := withdrawAll_departed (s := v) inv.distinct h
    refine gone.mono (congrArg Scheduler.queue scheduler) ?_
    have report : (stopPlaced vs u).report = u.report := placed.report
    show u.report.queue ⊆ (stopPlaced vs u).report.queue
    rw [report]
    exact List.Subset.refl _
  case anchor => exact (congrArg Scheduler.anchor (scheduler.trans anchored)).trans rfl
  case lastScene => exact (congrArg Scheduler.lastScene (scheduler.trans anchored)).trans rfl
  case lastFrame => exact (congrArg Scheduler.lastFrame (scheduler.trans anchored)).trans rfl
  case length => exact (stopPlaced_length vs u).trans (congrArg List.length withdrew.tiles)
  case tile =>
    have tile : u.tile k = s.tile k := withdrew.tile k
    have prof : u.prof = s.prof := withdrew.prof
    have there : k < u.tiles.length := by rw [withdrew.tiles]; exact there
    have := stopPlaced_tile vs u there
    rw [tile, prof] at this
    exact this

end Sys2Proof.Machine
end

section
/-! The Chain Follower's test (R35), writes that land (R41, R52, R182, R184), echoes and descriptors (R136, R137, R140), and
the words of a burst (R124). -/

set_option Elab.async false

namespace Sys2Proof.Machine

/-! ## A record in use (R35, R41, R79) -/

theorem QueueItem.isFor_iff (record : Nat) (x : QueueItem) :
    x.isFor record = true ↔ ∃ k g, x = .outcome ⟨record, k⟩ g := by
  cases x with
  | outcome w granted =>
    refine ⟨fun h => ⟨w.kind, granted, ?_⟩, ?_⟩
    · rw [← beq_iff_eq.1 h]
    · rintro ⟨k, g, same⟩
      cases same
      exact beq_self_eq_true _
  | fault f granted => exact ⟨fun h => Bool.noConfusion h, fun ⟨_, _, h⟩ => nomatch h⟩
  | refresh g n a b => exact ⟨fun h => Bool.noConfusion h, fun ⟨_, _, h⟩ => nomatch h⟩

theorem State.recordInUse_iff (s : State) (record : Nat) :
    s.recordInUse record = true ↔ (∃ e ∈ s.scheduler.queue, e.cue.record = record) ∨
      (∃ k g, QueueItem.outcome ⟨record, k⟩ g ∈ s.report.queue) ∨ (∃ w ∈ s.commit.handoff, w.record = record) := by
  have queued : s.report.queue.any (·.isFor record) = true ↔ ∃ k g, QueueItem.outcome ⟨record, k⟩ g ∈ s.report.queue := by
    rw [List.any_eq_true]
    refine ⟨?_, fun ⟨k, g, h⟩ => ⟨_, h, (QueueItem.isFor_iff _ _).2 ⟨k, g, rfl⟩⟩⟩
    rintro ⟨x, h, isFor⟩
    obtain ⟨k, g, rfl⟩ := (QueueItem.isFor_iff _ _).1 isFor
    exact ⟨k, g, h⟩
  simp only [State.recordInUse, Bool.or_eq_true, queued, List.any_eq_true, beq_iff_eq, or_assoc]

/-! ## FETCH_BEGIN -/

/-- Settles O45: one case for each condition of R35, in its order. -/
theorem fetchBeginsByFourConditions : Obligations.FetchBeginsByFourConditions := by
  intro s fetching idle
  refine ⟨fetchBegin s, rfl, onlyIn_fetchBegin s, fun full => ?full, fun room inUse => ?reuse,
    fun room free closed => ?closed, fun room free opened => ?opened⟩
  case full => simp [fetchBegin, fetching, idle, Config.queueDepth, full]
  case reuse =>
    have inUse := (State.recordInUse_iff s s.follower.follow).2 inUse
    simp [fetchBegin, fetching, idle, Config.queueDepth, Nat.not_le.2 room, inUse]
  case closed =>
    have free : s.recordInUse s.follower.follow = false := by rwa [← State.recordInUse_iff, Bool.not_eq_true] at free
    simp [fetchBegin, fetching, idle, Config.queueDepth, Nat.not_le.2 room, free, closed]
  case opened =>
    have free : s.recordInUse s.follower.follow = false := by rwa [← State.recordInUse_iff, Bool.not_eq_true] at free
    have began : fetchBegin s = s.setFollower { s.follower with fetch := some (.record s.follower.follow [] none) } := by
      simp [fetchBegin, fetching, idle, Config.queueDepth, Nat.not_le.2 room, free, Nat.not_lt.2 opened]
    refine ⟨by rw [began]; rfl, ?_⟩
    rw [began, State.reservedPlaces, State.reservedPlaces, idle]
    exact Nat.add_comm 2 _ |>.trans (by rw [Nat.zero_add]; rfl)

/-! ## Landings -/

theorem followerOnLanded_of_other {s : State} (h : s.follower.state ≠ .waitReuse) : followerOnLanded s = s := by
  unfold followerOnLanded
  split
  next waiting => exact absurd waiting h
  all_goals rfl

theorem followerOnLanded_of_free {s : State} (h : s.follower.state = .waitReuse)
    (free : s.recordInUse s.follower.follow = false) :
    followerOnLanded s = s.setFollower { s.follower with state := .fetching } := by
  simp [followerOnLanded, h, free]

theorem countFinal_of_final {k : OutcomeKind} (h : k.isFinal = true) (s : State) :
    countFinal k s = raise .final (s.setReport { s.report with handback := s.report.handback + 1 }) := if_pos h

theorem countFinal_of_not_final {k : OutcomeKind} (h : k.isFinal = false) (s : State) : countFinal k s = s := by
  simp [countFinal, h]

theorem countFinal_report (k : OutcomeKind) (s : State) :
    (countFinal k s).report = { s.report with handback := (countFinal k s).report.handback } := by
  cases h : k.isFinal with
  | true => rw [countFinal_of_final h]; rfl
  | false => rw [countFinal_of_not_final h]

theorem outcomeLanded_eq {s : State} {w : OutcomeWrite} {rest : List QueueItem}
    (head : s.report.queue = .outcome w true :: rest) :
    outcomeLanded s = followerOnLanded (countFinal w.kind (s.setReport { s.report with queue := rest })) := by
  simp [outcomeLanded, popReport, head]

theorem faultLanded_eq {s : State} {f : FaultRecord} {rest : List QueueItem}
    (head : s.report.queue = .fault f true :: rest) :
    faultLanded s = if f.hold then raise .hold (raise .fault (s.setReport { s.report with queue := rest }))
      else raise .fault (s.setReport { s.report with queue := rest }) := by
  simp [faultLanded, popReport, head]

theorem refreshLanded_eq {s : State} {g : PageSnapshot} {n : Nat} {tag result : Bool} {rest : List QueueItem}
    (head : s.report.queue = .refresh g n tag result :: rest) (whole : 6 ≤ n) :
    refreshLanded s =
      let u := s.setReport { s.report with queue := rest }
      let v := if tag then raise .mark u else u
      if result then raise .store v else v := by
  simp [refreshLanded, popReport, head, refreshBursts, whole]

/-- The outcome write at the head lands (R41, R52). -/
theorem outcomeLanded_spec {s : State} {w : OutcomeWrite} {rest : List QueueItem}
    (head : s.report.queue = .outcome w true :: rest) :
    ∃ t, exec .outcomeWriteLanded s = .next t ∧ OnlyIn [.report, .window, .follower] s t ∧
      t.report = { s.report with queue := rest, handback := t.report.handback } ∧
      (match w.kind with
        | .released | .done _ _ _ _ | .skipped _ _ | .refused _ | .withdrawn =>
          t.report.handback = s.report.handback + 1 ∧ t.flag .final = true
        | .queued | .committed _ _ _ | .sceneShown _ _ _ | .keepShown _ _ _ _ =>
          t.report.handback = s.report.handback ∧ t.window = s.window) ∧
      (s.follower.state ≠ .waitReuse → t.follower = s.follower) ∧
      (s.follower.state = .waitReuse →
        (∀ e ∈ s.scheduler.queue, e.cue.record ≠ s.follower.follow) →
        (∀ k g, QueueItem.outcome ⟨s.follower.follow, k⟩ g ∉ rest) →
        (∀ x ∈ s.commit.handoff, x.record ≠ s.follower.follow) →
        t.follower = { s.follower with state := .fetching }) := by
  refine ⟨outcomeLanded s, rfl, onlyIn_outcomeLanded s, ?_⟩
  rw [outcomeLanded_eq head]
  set u := s.setReport { s.report with queue := rest }
  set v := countFinal w.kind u
  have counted : OnlyIn [.report, .window] u v := onlyIn_countFinal w.kind u
  have told := onlyIn_followerOnLanded v
  have follower : v.follower = s.follower := counted.follower
  have report := countFinal_report w.kind u
  refine ⟨?report, ?kind, fun other => ?kept, fun waiting queue writes handoff => ?goesOn⟩
  case report => rw [told.report]; exact report
  case kind =>
    rw [State.flag_of_window told.window, told.report, told.window]
    have final (h : w.kind.isFinal = true) : v.report.handback = s.report.handback + 1 ∧ v.flag .final = true := by
      rw [show v = _ from countFinal_of_final h u]
      exact ⟨rfl, flag_raise_same _ _⟩
    have other (h : w.kind.isFinal = false) : v.report.handback = s.report.handback ∧ v.window = s.window := by
      rw [show v = _ from countFinal_of_not_final h u]
      exact ⟨rfl, rfl⟩
    cases kind : w.kind with
    | released | done | skipped | refused | withdrawn => exact final (by rw [kind]; rfl)
    | queued | committed | sceneShown | keepShown => exact other (by rw [kind]; rfl)
  case kept => rw [followerOnLanded_of_other (by rwa [follower]), follower]
  case goesOn =>
    have free : v.recordInUse v.follower.follow = false := by
      rw [← Bool.not_eq_true, State.recordInUse_iff, follower, counted.scheduler, counted.commit,
        show v.report.queue = rest from congrArg Report.queue report]
      rintro (⟨e, h, same⟩ | ⟨k, g, h⟩ | ⟨x, h, same⟩)
      · exact queue e h same
      · exact writes k g h
      · exact handoff x h same
    rw [followerOnLanded_of_free (by rwa [follower]) free, follower]
    rfl

/-- Settles O50. -/
theorem writesLandInOrder : Obligations.WritesLandInOrder := by
  refine ⟨fun s w rest head => outcomeLanded_spec head, fun s f rest head => ?fault,
    fun s g tag result rest head => ?refresh⟩
  case fault =>
    refine ⟨faultLanded s, rfl, onlyIn_faultLanded s, ?_⟩
    rw [faultLanded_eq head]
    cases f.hold with
    | true =>
      refine ⟨rfl, ?_, fun _ => flag_raise_same _ _, fun h => Bool.noConfusion h⟩
      exact (flag_raise_ne (by decide) _).trans (flag_raise_same _ _)
    | false =>
      exact ⟨rfl, flag_raise_same _ _, fun h => Bool.noConfusion h, fun _ => flag_raise_ne (by decide) _⟩
  case refresh =>
    refine ⟨refreshLanded s, rfl, onlyIn_refreshLanded s, ?_⟩
    rw [refreshLanded_eq head (by decide)]
    cases tag <;> cases result <;>
      simp [flag_raise_ne (c := .mark) (d := .store) (by decide), flag_raise_ne (c := .store) (d := .mark) (by decide)]

/-! ## Echoes and descriptors -/

/-- Settles O53. -/
theorem echoAndDescriptorTaken : Obligations.EchoAndDescriptorTaken := by
  refine ⟨fun k tag s run small there => ?echo, fun k d s run small there => ⟨fun training latency size => ?fits,
    fun training misfit => ?misfits, fun other => ?other⟩⟩
  case echo =>
    refine ⟨takeEcho k tag s, rfl, onlyIn_takeEcho k tag s, ?_⟩
    rw [takeEcho, if_pos ⟨run, small⟩]
    exact ⟨otherTilesKept_updTile .., State.tile_updTile_same _ there⟩
  case fits =>
    have fits : panelFits s.prof k d = true := decide_eq_true ⟨latency, size⟩
    have took : takeDescriptor k d s = s.updTile k (fun t => { t with link := { t.link with
        descriptor := some d, state := .joining, joinCount := 0, missRun := 0 } }) := by
      rw [takeDescriptor, if_pos ⟨run, small, training⟩, if_pos fits]
    refine ⟨takeDescriptor k d s, rfl, ?_⟩
    rw [took, State.tile_updTile_same _ there]
    exact ⟨onlyIn_updTile k _ s, otherTilesKept_updTile .., rfl, rfl⟩
  case misfits =>
    have misfits : ¬ panelFits s.prof k d = true := fun h => misfit (of_decide_eq_true h)
    have took : takeDescriptor k d s = raise .tile (s.updTile k (fun t => { t with link := { t.link with
        descriptor := some d, state := .misfit, missRun := 0 } })) := by
      rw [takeDescriptor, if_pos ⟨run, small, training⟩, if_neg misfits]
    refine ⟨takeDescriptor k d s, rfl, onlyIn_takeDescriptor k d s, ?_⟩
    rw [took, raise_tile, State.tile_updTile_same _ there]
    exact ⟨(otherTilesKept_updTile k s _).trans (otherTilesKept_of_tiles (raise_tiles _ _)), rfl, rfl, flag_raise_same _ _⟩
  case other =>
    refine congrArg Host.Outcome.next (if_neg ?_)
    rintro ⟨-, -, training⟩
    exact other training

/-! ## Words that arrive (R124) -/

theorem Engine.lane_of_flight (e : Engine) (flight : List Burst) (id : LaneId) :
    ({ e with flight := flight } : Engine).lane id = e.lane id := by
  cases id <;> rfl

theorem Engine.setLane_flight (e : Engine) (id : LaneId) (l : Lane) : (e.setLane id l).flight = e.flight := by
  cases id <;> rfl

/-- A lane written reads back, the old one where the arrangement is split. -/
theorem Engine.lane_setLane_same {e : Engine} {id : LaneId} (there : id = .old → e.old.isSome = true) (l : Lane) :
    (e.setLane id l).lane id = l := by
  cases id with
  | main => rfl
  | old =>
    obtain ⟨o, ho⟩ := Option.isSome_iff_exists.1 (there rfl)
    simp [Engine.setLane, Engine.lane, ho]

theorem Engine.lane_setLane_ne {e : Engine} {id other : LaneId} (h : other ≠ id) (l : Lane) :
    (e.setLane id l).lane other = e.lane other := by
  match id, other with
  | .old, .main | .main, .old => rfl
  | .old, .old | .main, .main => exact absurd rfl h

/-- Settles O55. -/
theorem burstWordsJoinTheirLane : Obligations.BurstWordsJoinTheirLane := by
  intro k i b s there burst fresh
  refine ⟨burstArrives k i s, rfl, onlyIn_burstArrives k i s, ?_⟩
  simp only [burstArrives, burst]
  rw [State.tile_updTile_same _ there]
  set e : Engine := { (s.tile k).engine with flight := flightAfter i b (s.tile k).engine.flight }
  have lane (id : LaneId) : e.lane id = (s.tile k).engine.lane id := Engine.lane_of_flight _ _ id
  have flight : (if b.stale = true then e else e.setLane b.lane { e.lane b.lane with
      words := (e.lane b.lane).words ++ (b.words.take i.count).map (fun w => ⟨b.row, w⟩) }).flight =
      flightAfter i b (s.tile k).engine.flight := by
    split
    · rfl
    · exact Engine.setLane_flight ..
  refine ⟨otherTilesKept_updTile .., fun last => ?last, fun more => ?more, rfl, rfl, fun stale id => ?stale,
    fun joins => ⟨?joined, fun id other => ?others⟩⟩
  case last => exact flight.trans (if_pos last)
  case more => exact flight.trans (if_neg (Nat.not_le.2 more))
  case stale => simp only [stale, if_true, lane]
  case joined =>
    have split (old : b.lane = .old) : e.old.isSome = true := by
      rcases fresh with h | h | h
      · rw [joins] at h; cases h
      · rw [old] at h; cases h
      · exact h
    simp only [joins, Bool.false_eq_true, if_false, Engine.lane_setLane_same split, lane]
  case others => simp only [joins, Bool.false_eq_true, if_false, Engine.lane_setLane_ne other, lane]

end Sys2Proof.Machine
end

section
/-! Event inputs, accepted events (R10 to R15, R67 to R72, R95), and the Ambient Unit (R86, R89, R151 to R158). -/

set_option Elab.async false

namespace Sys2Proof.Machine

/-! ## Accepted events -/

/-- The start mode that waits for an input's event (R68). -/
def awaiting (i : EventInput) : StartMode := if i = .trigger then .onTrigger else .onPulse

theorem awaiting_isEvent (i : EventInput) : (awaiting i).isEvent = true := by cases i <;> rfl

theorem armedFor_eq_none (s : State) (i : EventInput) :
    s.armedFor (awaiting i) = none ↔ ∀ e, ¬ Armed (awaiting i) s e := by
  rw [Option.eq_none_iff_forall_ne_some]
  exact forall_congr' fun e => not_congr (armedFor_eq_some s (awaiting_isEvent i) e)

theorem LastScene.extendable_iff (t : Nat) (l : LastScene) :
    l.extendable t = true ↔ l.visible ≤ t ∧ l.extend = true ∧ 0 < l.dwell := by
  simp [LastScene.extendable, and_assoc]

section
variable {s : State}

theorem triggerEvent_elsewhere (h : s.window.wall ≠ .showing) : triggerEvent s = s := if_pos h

theorem triggerEvent_armed (wall : s.window.wall = .showing) {e : Entry} (armed : s.armedFor .onTrigger = some e) :
    triggerEvent s = resolveWait e.cue.record s := by
  simp [triggerEvent, wall, armed]

theorem triggerEvent_lengthens (wall : s.window.wall = .showing) (none : s.armedFor .onTrigger = none) {l : LastScene}
    (last : s.scheduler.lastScene = some l) (h : l.extendable s.now = true) : triggerEvent s = extendScene l s := by
  simp [triggerEvent, wall, none, last, h]

theorem triggerEvent_idle (none : s.armedFor .onTrigger = none)
    (h : ∀ l, s.scheduler.lastScene = some l → l.extendable s.now = false) : triggerEvent s = s := by
  unfold triggerEvent
  rw [none]
  cases last : s.scheduler.lastScene with
  | none => exact ite_self _
  | some l => simp [h l last]

theorem pulseEvent_elsewhere (h : s.window.wall ≠ .showing) : pulseEvent s = s := if_pos h

theorem pulseEvent_armed (wall : s.window.wall = .showing) {e : Entry} (armed : s.armedFor .onPulse = some e) :
    pulseEvent s = resolveWait e.cue.record s := by
  simp [pulseEvent, wall, armed]

theorem pulseEvent_idle (none : s.armedFor .onPulse = none) : pulseEvent s = s := by
  simp [pulseEvent, none]

theorem eventTaken_triggerEvent (s : State) : EventTaken .trigger s (triggerEvent s) := by
  refine ⟨fun wall => ?elsewhere, fun e wall armed => ?armed, fun l wall none last lengthens => ?longer,
    fun wall none still => ?idle⟩
  case elsewhere => rw [triggerEvent_elsewhere wall]; exact ⟨rfl, rfl⟩
  case armed =>
    rw [triggerEvent_armed wall ((armedFor_eq_some s rfl e).2 armed)]
    exact ⟨rfl, rfl⟩
  case longer =>
    rw [triggerEvent_lengthens wall ((armedFor_eq_none s .trigger).2 none) last
      ((LastScene.extendable_iff _ _).2 lengthens.2)]
    exact ⟨rfl, rfl⟩
  case idle =>
    have still (l : LastScene) (last : s.scheduler.lastScene = some l) : l.extendable s.now = false := by
      rw [← Bool.not_eq_true, LastScene.extendable_iff]
      exact fun h => still l last ⟨rfl, h⟩
    rw [triggerEvent_idle ((armedFor_eq_none s .trigger).2 none) still]
    exact ⟨rfl, rfl⟩

theorem eventTaken_pulseEvent (s : State) : EventTaken .pulse s (pulseEvent s) := by
  refine ⟨fun wall => ?elsewhere, fun e wall armed => ?armed, fun l _ _ _ lengthens => ?longer,
    fun wall none still => ?idle⟩
  case elsewhere => rw [pulseEvent_elsewhere wall]; exact ⟨rfl, rfl⟩
  case armed =>
    rw [pulseEvent_armed wall ((armedFor_eq_some s rfl e).2 armed)]
    exact ⟨rfl, rfl⟩
  case longer => exact absurd lengthens.1 (by decide)
  case idle =>
    rw [pulseEvent_idle ((armedFor_eq_none s .pulse).2 none)]
    exact ⟨rfl, rfl⟩

theorem EventTaken.congr {i : EventInput} {t u : State} (h : EventTaken i s t) (scheduler : u.scheduler = t.scheduler)
    (commit : u.commit = t.commit) : EventTaken i s u := by
  rw [EventTaken, scheduler, commit]
  exact h

theorem onlyIn_pendAlignment (s : State) : OnlyIn [.ftg] s (pendAlignment s) :=
  onlyIn_ite (onlyIn_setFtg s _) (.refl _ _)

theorem pendAlignment_ftg (s : State) :
    (pendAlignment s).ftg = { s.ftg with alignPending := s.ftg.alignPending || s.prof.pulseAlign } := by
  unfold pendAlignment
  cases s.prof.pulseAlign <;> simp

theorem eventTaken_acceptEvent (i : EventInput) (s : State) : EventTaken i s (acceptEvent i s) := by
  cases i with
  | trigger => exact eventTaken_triggerEvent s
  | pulse =>
    have pended := onlyIn_pendAlignment (pulseEvent s)
    exact (eventTaken_pulseEvent s).congr pended.scheduler pended.commit

theorem acceptEvent_trigger_ftg (s : State) : (acceptEvent .trigger s).ftg = s.ftg := (onlyIn_triggerEvent s).ftg

theorem acceptEvent_pulse_ftg (s : State) :
    (acceptEvent .pulse s).ftg = { s.ftg with alignPending := s.ftg.alignPending || s.prof.pulseAlign } := by
  have kept := onlyIn_pulseEvent s
  rw [show acceptEvent .pulse s = pendAlignment (pulseEvent s) from rfl, pendAlignment_ftg, kept.ftg, kept.prof]

/-- An event accepted from a filter that then waits for the input to become inactive (R10, R13, R14). -/
theorem acceptEvent_waiting (i : EventInput) (s : State) :
    EventTaken i s (acceptEvent i (setFilter i .waitInactive s)) ∧
      (i = .trigger → (acceptEvent i (setFilter i .waitInactive s)).ftg = { s.ftg with trigger := .waitInactive }) ∧
      (i = .pulse → (acceptEvent i (setFilter i .waitInactive s)).ftg = { s.ftg with
        pulse := .waitInactive, alignPending := s.ftg.alignPending || s.prof.pulseAlign }) := by
  have taken := eventTaken_acceptEvent i (setFilter i .waitInactive s)
  cases i with
  | trigger => exact ⟨taken, fun _ => acceptEvent_trigger_ftg _, fun h => absurd h (by decide)⟩
  | pulse => exact ⟨taken, fun h => absurd h (by decide), fun _ => acceptEvent_pulse_ftg _⟩

end

/-- Settles O57. -/
theorem acceptedEventsActOnTheQueue : Obligations.AcceptedEventsActOnTheQueue := by
  intro i s n run level qualifying
  have width : widthReached i s = acceptEvent i (setFilter i .waitInactive s) := by
    simp [widthReached, qualifying, run, level]
  exact ⟨widthReached i s, rfl, onlyIn_widthReached i s, width ▸ acceptEvent_waiting i s⟩

/-! ## The filters (R10 to R12) -/

/-- Settles O56. -/
theorem eventInputsAreFiltered : Obligations.EventInputsAreFiltered := by
  intro i s
  refine ⟨fun level run idle width => ?qualifies, fun level run idle width => ?accepted, fun level still => ?unwatched,
    fun run => ?inactive, fun stopped => ?stopped⟩
  case qualifies =>
    have active : inputActive i s =
        setFilter i (.qualifying 0) (s.setPins (s.pins.setLevel i true)) := by
      simp [inputActive, level, run, idle, qualify, Nat.ne_of_gt width]
    refine ⟨inputActive i s, rfl, ?_⟩
    rw [active]
    exact ⟨((onlyIn_setPins s _).mono (by decide)).trans ((onlyIn_setFilter i _ _).mono (by decide)), rfl, rfl⟩
  case accepted =>
    have active : inputActive i s =
        acceptEvent i (setFilter i .waitInactive (s.setPins (s.pins.setLevel i true))) := by
      simp [inputActive, level, run, idle, qualify, width]
    refine ⟨inputActive i s, rfl, onlyIn_inputActive i s, ?_⟩
    rw [active]
    exact ⟨(onlyIn_acceptEvent i _).pins, acceptEvent_waiting i (s.setPins (s.pins.setLevel i true))⟩
  case unwatched =>
    have still : ¬ (s.ftg.running = true ∧ s.ftg.filter i = .idle) := by
      rintro ⟨run, idle⟩
      exact still.elim (fun h => by rw [run] at h; cases h) (fun h => h idle)
    have active : inputActive i s = s.setPins (s.pins.setLevel i true) := by
      simp only [inputActive, level, if_neg still, Bool.false_eq_true, if_false]
    exact ⟨inputActive i s, rfl, active ▸ onlyIn_setPins s _, active ▸ rfl⟩
  case inactive =>
    refine ⟨inputInactive i s, rfl, onlyIn_inputInactive i s, ?_⟩
    rw [inputInactive, if_pos run]
    exact ⟨rfl, rfl⟩
  case stopped =>
    refine ⟨inputInactive i s, rfl, ?_⟩
    rw [inputInactive, if_neg (by rw [stopped]; decide)]
    exact ⟨onlyIn_setPins s _, rfl⟩

/-! ## Failed readings (R155) -/

section
variable {s : State}

theorem failReading_at_fault (h : s.ambient.status = .fault) :
    failReading s = s.setAmbient { s.ambient with inFlight := none } := by
  simp [failReading, h]

theorem failReading_counts (h : s.ambient.status ≠ .fault) (few : s.ambient.failures + 1 < 8) :
    failReading s = s.setAmbient { s.ambient with inFlight := none, failures := s.ambient.failures + 1 } := by
  cases status : s.ambient.status with
  | fault => exact absurd status h
  | good | noReading => simp [failReading, status, Config.sensorFaultAt, Nat.not_le.2 few]

theorem failReading_faults (h : s.ambient.status ≠ .fault) (many : 8 ≤ s.ambient.failures + 1) :
    failReading s = raise .ambient (s.setAmbient
      { s.ambient with inFlight := none, failures := 8, status := .fault, confirm := 0 }) := by
  cases status : s.ambient.status with
  | fault => exact absurd status h
  | good | noReading => simp [failReading, status, Config.sensorFaultAt, many]

end

/-! ## Readings judged (R153, R154, R157) -/

/-- The Ambient Unit with a valid reading taken, before the decision (R153, R156). -/
def AmbientUnit.took (r : Nat) (a : AmbientUnit) : AmbientUnit :=
  { a with
    inFlight := none
    history := pushReading r (if a.status = .fault then [] else a.history)
    average := some ((pushReading r (if a.status = .fault then [] else a.history)).sum / 4)
    failures := 0
    status := .good
    confirm := if a.status = .fault then 0 else a.confirm }

theorem takeReading_of_good (r : Nat) {s : State} (h : s.ambient.status ≠ .fault) :
    takeReading r s = judgeAmbient ((pushReading r s.ambient.history).sum / 4) (s.setAmbient (s.ambient.took r)) := by
  simp [takeReading, AmbientUnit.took, h]

theorem takeReading_of_fault (r : Nat) {s : State} (h : s.ambient.status = .fault) :
    takeReading r s =
      judgeAmbient ((pushReading r []).sum / 4) (raise .ambient (s.setAmbient (s.ambient.took r))) := by
  simp [takeReading, AmbientUnit.took, h]

theorem pushReading_eq (r : Nat) (h : List Nat) :
    pushReading r h = if h = [] then [r, r, r, r] else h.tail ++ [r] := by
  cases h <;> rfl

theorem judgeAmbient_forced (average : Nat) {s : State} (h : s.prof.ambientMode ≠ .auto) :
    judgeAmbient average s = s := by
  unfold judgeAmbient
  split
  next auto => exact absurd auto h
  all_goals rfl

/-- What the condition to change says of an average (R154). -/
theorem changeCondition_iff (p : Profile) (level : LevelSet) (avg : Nat) :
    changeCondition p level avg = true ↔
      (level = .street ∧ avg ≤ p.downThreshold) ∨ (level = .dusk ∧ p.upThreshold ≤ avg) := by
  cases level <;> simp [changeCondition]

section
variable {average : Nat} {s : State} (auto : s.prof.ambientMode = .auto)
include auto

theorem judgeAmbient_quiet (h : changeCondition s.prof s.ambient.level average = false) :
    judgeAmbient average s = s.setAmbient { s.ambient with confirm := 0 } := by
  simp [judgeAmbient, auto, h]

theorem judgeAmbient_counts (h : changeCondition s.prof s.ambient.level average = true)
    (few : s.ambient.confirm + 1 < s.prof.confirm) :
    judgeAmbient average s = s.setAmbient { s.ambient with confirm := s.ambient.confirm + 1 } := by
  simp [judgeAmbient, auto, h, Nat.not_le.2 few]

theorem judgeAmbient_changes (h : changeCondition s.prof s.ambient.level average = true)
    (enough : s.prof.confirm ≤ s.ambient.confirm + 1) : judgeAmbient average s = changeAmbient s := by
  simp [judgeAmbient, auto, h, enough]

end

theorem State.pendingRoom_iff (s : State) (k : Nat) :
    s.pendingRoom k = true ↔ (s.tile k).switches.countP (fun sw => sw.frame != s.now) < 16 := decide_eq_true_iff

/-- A set change handed on: placed in every list where each has room, and otherwise waiting (R86, R89). -/
theorem requestLevel_spec (set : LevelSet) (s : State) :
    let room := ∀ k, k < s.prof.tiles → (s.tile k).switches.countP (fun sw => sw.frame != s.now) < 16
    (room → (requestLevel set s).commit =
        { s.commit with levelRequest := none, commitCount := s.commit.commitCount + 1 } ∧
      ∀ k, k < s.prof.tiles → k < s.tiles.length →
        (requestLevel set s).tile k = (s.tile k).placed (s.now + s.horizon) (.level set) s.prof) ∧
    (¬ room → requestLevel set s = s.setCommit { s.commit with levelRequest := some ⟨set, s.now + s.horizon⟩ }) := by
  refine ⟨fun room => ?_, fun full => requestLevel_waits set ?_⟩
  · rw [requestLevel_placed set fun k hk => (s.pendingRoom_iff k).2 (room k hk)]
    set u := s.setCommit { s.commit with levelRequest := none, commitCount := s.commit.commitCount + 1 }
    have kept := onlyIn_forTiles s.prof.tiles _
      (fun k u => onlyIn_placeSwitch k (s.now + s.horizon) (.level set) u) u
    exact ⟨kept.commit, fun k small there => forTiles_placeSwitch_tile _ _ small there⟩
  · push Not at full
    obtain ⟨k, small, full⟩ := full
    refine ⟨k, small, ?_⟩
    rw [← Bool.not_eq_true, State.pendingRoom_iff]
    exact Nat.not_lt.2 full

theorem Tile.mem_placed (visible : Nat) (body : SwitchBody) (p : Profile) (t : Tile) :
    ⟨visible - (t.link.latency.getD p.lmax), body⟩ ∈ (t.placed visible body p).switches :=
  (mem_insertSwitch _ _ _).2 (.inl rfl)

theorem LevelSet.other_ne (l : LevelSet) : l.other ≠ l := by cases l <;> decide

/-- The ambient state changes (R154, R158). -/
theorem changeAmbient_spec (s : State) :
    let t := changeAmbient s
    let room := ∀ k, k < s.prof.tiles → (s.tile k).switches.countP (fun sw => sw.frame != s.now) < 16
    t.ambient = { s.ambient with level := s.ambient.level.other, confirm := 0 } ∧ t.flag .ambient = true ∧
    (room → t.commit = { s.commit with levelRequest := none, commitCount := s.commit.commitCount + 1 } ∧
      ∀ k, k < s.prof.tiles → k < s.tiles.length →
        t.tile k = (s.tile k).placed (s.now + s.horizon) (.level s.ambient.level.other) s.prof) ∧
    (¬ room → t.tiles = s.tiles ∧
      t.commit = { s.commit with levelRequest := some ⟨s.ambient.level.other, s.now + s.horizon⟩ }) := by
  set u := raise .ambient (s.setAmbient { s.ambient with level := s.ambient.level.other, confirm := 0 })
  have kept := onlyIn_requestLevel s.ambient.level.other u
  obtain ⟨placed, waits⟩ := requestLevel_spec s.ambient.level.other u
  refine ⟨kept.ambient, (State.flag_of_window kept.window _).trans (flag_raise_same _ _), placed, fun full => ?_⟩
  have : changeAmbient s = _ := waits full
  rw [this]
  exact ⟨rfl, rfl⟩

/-- A reading judged in AUTO mode, from a state that differs from `s` in the Ambient Unit and the Register Window, its
level kept (R154, R158). -/
theorem levelJudged_judgeAmbient {average : Nat} {s u : State} (auto : s.prof.ambientMode = .auto)
    (kept : OnlyIn [.ambient, .window] s u) (level : u.ambient.level = s.ambient.level) :
    LevelJudged average u.ambient.confirm s (judgeAmbient average u) := by
  have prof : u.prof = s.prof := kept.prof
  have now : u.now = s.now := kept.now
  have horizon : u.horizon = s.horizon := kept.horizon
  have autoU : u.prof.ambientMode = .auto := by rw [prof]; exact auto
  have holds := changeCondition_iff u.prof u.ambient.level average
  simp only [level, prof] at holds
  have within (a : AmbientUnit) : OnlyIn [.ambient, .window] s (u.setAmbient a) :=
    kept.trans ((onlyIn_setAmbient u a).mono (by decide))
  refine ⟨fun not => ?quiet, fun change few => ?counts, fun change enough => ?changes⟩
  case quiet =>
    rw [judgeAmbient_quiet autoU (by rw [level, prof, ← Bool.not_eq_true, holds]; exact not)]
    exact ⟨level, rfl, within _⟩
  case counts =>
    rw [judgeAmbient_counts autoU (by rw [level, prof, holds]; exact change) (by rw [prof]; exact few)]
    exact ⟨level, rfl, within _⟩
  case changes =>
    rw [judgeAmbient_changes autoU (by rw [level, prof, holds]; exact change) (by rw [prof]; exact enough)]
    obtain ⟨ambient, flag, placed, waits⟩ := changeAmbient_spec u
    simp only [prof, now, horizon, kept.tile, kept.commit, kept.tiles] at placed waits
    have newLevel : (changeAmbient u).ambient.level = u.ambient.level.other := congrArg AmbientUnit.level ambient
    refine ⟨?_, congrArg AmbientUnit.confirm ambient, flag, fun room => ⟨(placed room).1, fun k small there => ?_⟩,
      fun full => ?_⟩
    · rw [newLevel, ← level]
      exact LevelSet.other_ne _
    · rw [newLevel, (placed room).2 k small there]
      exact Tile.mem_placed _ _ _ _
    · rw [newLevel]
      exact waits full

/-- Judging changes of the Ambient Unit only its level and confirmation count. -/
theorem judgeAmbient_ambient (average : Nat) (s : State) :
    (judgeAmbient average s).ambient = { s.ambient with
      level := (judgeAmbient average s).ambient.level, confirm := (judgeAmbient average s).ambient.confirm } := by
  unfold judgeAmbient
  split
  · split_ifs
    · have := (changeAmbient_spec s).1
      rw [this]
    · rfl
    · rfl
  all_goals rfl

/-- A flag once set stays so while attention only rises. -/
theorem AttentionRises.flag {s t : State} (h : AttentionRises s t) {c : Cause} (set : s.flag c = true) :
    t.flag c = true := by
  rw [State.flag_eq] at set ⊢
  have kept := congrArg (fun v => v.getLsbD c.bit) h.attn
  simpa [set] using kept

/-- Settles O59. -/
theorem sensorFaultsBeginAndEnd : Obligations.SensorFaultsBeginAndEnd := by
  refine ⟨fun s flying => ?fails, fun x y s flying fault => ?ends⟩
  case fails =>
    refine ⟨failReading s, congrArg _ (if_pos flying), onlyIn_failReading s, fun fault => ?_, fun good few => ?_,
      fun good many => ?_⟩
    · rw [failReading_at_fault fault]; exact ⟨rfl, rfl⟩
    · rw [failReading_counts good few]; exact ⟨rfl, rfl⟩
    · rw [failReading_faults good many]; exact ⟨rfl, flag_raise_same _ _⟩
  case ends =>
    set r := sensorValue x y
    refine ⟨takeReading r s, congrArg _ (if_pos flying), onlyIn_takeReading r s, ?_⟩
    have mean : (pushReading r []).sum / 4 = r := by simp [pushReading]; omega
    rw [takeReading_of_fault r fault, mean]
    set u := raise .ambient (s.setAmbient (s.ambient.took r))
    have took : u.ambient = { s.ambient with
        inFlight := none, history := [r, r, r, r], average := some r, failures := 0, status := .good, confirm := 0 } := by
      show s.ambient.took r = _
      simp only [AmbientUnit.took, fault, if_true, mean]
      rfl
    have kept : OnlyIn [.ambient, .window] s u :=
      ((onlyIn_setAmbient s _).mono (by decide)).trans ((onlyIn_raise .ambient _).mono (by decide))
    have judged := judgeAmbient_ambient r u
    rw [took] at judged
    have confirm : u.ambient.confirm = 0 := congrArg AmbientUnit.confirm took
    have level : u.ambient.level = s.ambient.level := (congrArg AmbientUnit.level took).trans rfl
    refine ⟨congrArg AmbientUnit.inFlight judged, congrArg AmbientUnit.history judged,
      congrArg AmbientUnit.average judged, congrArg AmbientUnit.failures judged, congrArg AmbientUnit.status judged,
      ?flag, fun auto => ?auto, fun forced => ?forced⟩
    case flag =>
      exact (attentionRises_judgeAmbient r u).flag (flag_raise_same _ _)
    case auto => exact confirm ▸ levelJudged_judgeAmbient auto kept level
    case forced =>
      have forced : u.prof.ambientMode ≠ .auto := by rw [kept.prof]; exact forced
      rw [judgeAmbient_forced r forced]
      exact ⟨level, confirm, kept⟩

/-- A poll instant (R151). -/
theorem ambientPoll_reads {s : State} (polling : s.ambient.polling = true) (idle : s.ambient.inFlight = none) :
    ∃ t, exec .ambientPoll s = .next t ∧ OnlyIn [.ambient] s t ∧ t.ambient = { s.ambient with inFlight := some 0 } :=
  ⟨s.setAmbient { s.ambient with inFlight := some 0 }, congrArg Host.Outcome.next (if_pos ⟨polling, idle⟩),
    onlyIn_setAmbient s _, rfl⟩

/-- A valid reading in AUTO mode, the sensor not at fault (R153, R154). -/
theorem sensorReading_auto (x y : BitVec 8) {s : State} (flying : s.ambient.inFlight.isSome = true)
    (auto : s.prof.ambientMode = .auto) (good : s.ambient.status ≠ .fault) :
    ∃ t, exec (.sensorReading x y) s = .next t ∧
      OnlyIn [.ambient, .window, .commit, .tiles] s t ∧
      let r := x.toNat * 16 + y.toNat / 16
      let h := if s.ambient.history = [] then [r, r, r, r] else s.ambient.history.tail ++ [r]
      let avg := h.sum / 4
      t.ambient.inFlight = none ∧ t.ambient.history = h ∧ t.ambient.average = some avg ∧ t.ambient.failures = 0 ∧
      t.ambient.status = .good ∧
      LevelJudged avg s.ambient.confirm s t ∧ (t.ambient.level = s.ambient.level → OnlyIn [.ambient] s t) := by
  set r := sensorValue x y
  refine ⟨takeReading r s, congrArg _ (if_pos flying), onlyIn_takeReading r s, ?_⟩
  dsimp only
  rw [takeReading_of_good r good, show x.toNat * 16 + y.toNat / 16 = r from rfl, ← pushReading_eq]
  set avg := (pushReading r s.ambient.history).sum / 4
  set u := s.setAmbient (s.ambient.took r)
  have took : u.ambient = { s.ambient with
      inFlight := none, history := pushReading r s.ambient.history, average := some avg, failures := 0,
      status := .good } := by
    show s.ambient.took r = _
    simp only [AmbientUnit.took, good, if_false]
    rfl
  have kept : OnlyIn [.ambient] s u := onlyIn_setAmbient s _
  have judged := judgeAmbient_ambient avg u
  rw [took] at judged
  have confirm : u.ambient.confirm = s.ambient.confirm := (congrArg AmbientUnit.confirm took).trans rfl
  have level : u.ambient.level = s.ambient.level := (congrArg AmbientUnit.level took).trans rfl
  have autoU : u.prof.ambientMode = .auto := auto
  refine ⟨congrArg AmbientUnit.inFlight judged, congrArg AmbientUnit.history judged,
    congrArg AmbientUnit.average judged, congrArg AmbientUnit.failures judged, congrArg AmbientUnit.status judged,
    confirm ▸ levelJudged_judgeAmbient auto (kept.mono (by decide)) level, fun same => ?quiet⟩
  cases change : changeCondition u.prof u.ambient.level avg with
  | false =>
    rw [judgeAmbient_quiet autoU change]
    exact kept.trans (onlyIn_setAmbient _ _)
  | true =>
    by_cases enough : u.prof.confirm ≤ u.ambient.confirm + 1
    · rw [judgeAmbient_changes autoU change enough] at same
      have new : (changeAmbient u).ambient.level = u.ambient.level.other :=
        congrArg AmbientUnit.level (changeAmbient_spec u).1
      exact absurd (new.symm.trans (same.trans level.symm)) (LevelSet.other_ne _)
    · rw [judgeAmbient_counts autoU change (Nat.lt_of_not_le enough)]
      exact kept.trans (onlyIn_setAmbient _ _)

/-- A valid reading in a forced mode, the sensor not at fault (R153, R157). -/
theorem sensorReading_forced (x y : BitVec 8) {s : State} (flying : s.ambient.inFlight.isSome = true)
    (forced : s.prof.ambientMode ≠ .auto) (good : s.ambient.status ≠ .fault) :
    ∃ t, exec (.sensorReading x y) s = .next t ∧ OnlyIn [.ambient] s t ∧
      let r := x.toNat * 16 + y.toNat / 16
      let h := if s.ambient.history = [] then [r, r, r, r] else s.ambient.history.tail ++ [r]
      t.ambient = { s.ambient with inFlight := none, history := h, average := some (h.sum / 4), failures := 0,
                                   status := .good } := by
  set r := sensorValue x y
  refine ⟨takeReading r s, congrArg _ (if_pos flying), ?_⟩
  dsimp only
  rw [takeReading_of_good r good, judgeAmbient_forced _ (by exact forced),
    show x.toNat * 16 + y.toNat / 16 = r from rfl, ← pushReading_eq]
  refine ⟨onlyIn_setAmbient s _, ?_⟩
  show s.ambient.took r = _
  simp only [AmbientUnit.took, good, if_false]

end Sys2Proof.Machine
end

section
/-! The host window port (R130), and the grants of the fetch engines, the host and the shared place (R21, R36, R42, R122,
R123, R129, R132, R168). -/

set_option Elab.async false

namespace Sys2Proof.Machine

/-! ## Runs of bytes read -/

theorem Memory.readBytes_append (m : List Host.Cell) (a n k : Nat) :
    Memory.readBytes m a (n + k) = Memory.readBytes m a n ++ Memory.readBytes m (a + n) k := by
  simp [Memory.readBytes, List.range_add, Nat.add_assoc]

/-! ## Splitting at the 128-byte boundaries -/

section
variable {a n : Nat} {d : List Byte}

theorem splitAccess_read_short (h : n ≤ 128 - a % 128) : splitAccess (.read a n) = [.read a n] := if_pos h

theorem splitAccess_read_long (h : 128 - a % 128 < n) :
    splitAccess (.read a n) = [.read a (128 - a % 128), .read (a + (128 - a % 128)) (n - (128 - a % 128))] :=
  if_neg (Nat.not_le.2 h)

theorem splitAccess_write_short (h : d.length ≤ 128 - a % 128) : splitAccess (.write a d) = [.write a d] := if_pos h

theorem splitAccess_write_long (h : 128 - a % 128 < d.length) :
    splitAccess (.write a d) =
      [.write a (d.take (128 - a % 128)), .write (a + (128 - a % 128)) (d.drop (128 - a % 128))] :=
  if_neg (Nat.not_le.2 h)

theorem splitAccess_read_block (some : 1 ≤ n) (few : n ≤ 128) {p : AccessPart} (h : p ∈ splitAccess (.read a n)) :
    ∃ b k, p = .read b k ∧ 0 < k ∧ b / 128 = (b + k - 1) / 128 := by
  by_cases short : n ≤ 128 - a % 128
  · rw [splitAccess_read_short short, List.mem_singleton] at h
    exact ⟨a, n, h, some, by omega⟩
  · rw [splitAccess_read_long (Nat.lt_of_not_le short), List.mem_pair] at h
    obtain h | h := h
    · exact ⟨_, _, h, by omega, by omega⟩
    · exact ⟨_, _, h, by omega, by omega⟩

theorem splitAccess_write_block (some : 1 ≤ d.length) (few : d.length ≤ 128) {p : AccessPart}
    (h : p ∈ splitAccess (.write a d)) :
    ∃ b e, p = .write b e ∧ e ≠ [] ∧ b / 128 = (b + e.length - 1) / 128 := by
  by_cases short : d.length ≤ 128 - a % 128
  · rw [splitAccess_write_short short, List.mem_singleton] at h
    exact ⟨a, d, h, List.ne_nil_of_length_pos some, by omega⟩
  · rw [splitAccess_write_long (Nat.lt_of_not_le short), List.mem_pair] at h
    obtain h | h := h
    · exact ⟨_, _, h, List.ne_nil_of_length_pos (by rw [List.length_take]; omega), by rw [List.length_take]; omega⟩
    · exact ⟨_, _, h, List.ne_nil_of_length_pos (by rw [List.length_drop]; omega), by rw [List.length_drop]; omega⟩

/-- The parts of a read bring its bytes. -/
theorem splitAccess_read_bytes (m : List Host.Cell) (a n : Nat) :
    ((splitAccess (.read a n)).map (fun p => (p.perform m).1)).flatten = Memory.readBytes m a n := by
  by_cases short : n ≤ 128 - a % 128
  · rw [splitAccess_read_short short]
    exact List.append_nil _
  · have long := Nat.lt_of_not_le short
    rw [splitAccess_read_long long]
    have := Memory.readBytes_append m a (128 - a % 128) (n - (128 - a % 128))
    rw [Nat.add_sub_cancel' long.le] at this
    rw [this]
    exact congrArg _ (List.append_nil _)

/-- The parts of a write put its bytes where it says. -/
theorem splitAccess_write_bytes {m : List Host.Cell} (wf : Memory.wf m = true) (a : Nat) (d : List Byte) (x : Nat) :
    Memory.read ((splitAccess (.write a d)).foldl (fun m p => (p.perform m).2) m) x =
      if a ≤ x ∧ x < a + d.length then d.getD (x - a) 0 else Memory.read m x := by
  by_cases short : d.length ≤ 128 - a % 128
  · rw [splitAccess_write_short short]
    exact Memory.read_writeBytes a x d wf
  · have long := Nat.lt_of_not_le short
    rw [splitAccess_write_long long]
    refine (Memory.read_writeBytes _ x _ (Memory.wf_writeBytes a _ wf)).trans ?_
    rw [Memory.read_writeBytes a x _ wf]
    set room := 128 - a % 128
    simp only [List.length_drop, List.length_take, List.getD_eq_getElem?_getD, List.getElem?_drop,
      List.getElem?_take]
    by_cases second : a + room ≤ x ∧ x < a + room + (d.length - room)
    · rw [if_pos second, if_pos (by omega), show room + (x - (a + room)) = x - a by omega]
    · rw [if_neg second]
      by_cases first : a ≤ x ∧ x < a + min room d.length
      · rw [if_pos first, if_pos (by omega), if_pos (by omega)]
      · rw [if_neg first, if_neg (by omega)]

end

/-! ## HOST_WINDOW_ACCESS -/

theorem exec_hostWindowAccess_read (a n : Nat) (s : State) :
    exec (.hostWindowAccess (.read a n)) s =
      if n = 0 ∨ 128 < n then .refused .malformedAccess
      else if Config.showBytes < a + n then .fault .outsideShowMemory else .next (s.setPort (s.port.take (.read a n))) := rfl

theorem exec_hostWindowAccess_write (a : Nat) (d : List Byte) (s : State) :
    exec (.hostWindowAccess (.write a d)) s =
      if d.length = 0 ∨ 128 < d.length then .refused .malformedAccess
      else if Config.showBytes < a + d.length then .fault .outsideShowMemory
      else .next (s.setPort (s.port.take (.write a d))) := rfl

theorem exec_hostWindowAccess_of_wf {a : WindowAccess} (h : a.wf = true) (s : State) :
    exec (.hostWindowAccess a) s = .next (s.setPort (s.port.take a)) := by
  cases a with
  | read a n =>
    obtain ⟨some, few, inside⟩ := of_decide_eq_true h
    rw [exec_hostWindowAccess_read, if_neg (by omega), if_neg (by omega)]
  | write a d =>
    obtain ⟨some, few, inside⟩ := of_decide_eq_true h
    rw [exec_hostWindowAccess_write, if_neg (by omega), if_neg (by omega)]

theorem HostPort.take_readData (a : WindowAccess) (p : HostPort) : (p.take a).readData = p.readData := by
  unfold HostPort.take
  split <;> rfl

theorem HostPort.take_of_room {p : HostPort} (room : p.accesses.length < 8) (empty : p.backlog = [])
    (a : WindowAccess) : p.take a = { p with accesses := p.accesses ++ [⟨splitAccess a, []⟩] } := if_pos ⟨room, empty⟩

theorem HostPort.take_of_full {p : HostPort} (full : 8 ≤ p.accesses.length ∨ p.backlog ≠ []) (a : WindowAccess) :
    p.take a = { p with backlog := p.backlog ++ [a] } :=
  if_neg fun ⟨room, empty⟩ => full.elim (Nat.not_le.2 room) (fun h => h empty)

/-- Settles O35. -/
theorem hostAccessEntersThePort : Obligations.HostAccessEntersThePort := by
  refine ⟨fun a s wf => ?taken, fun a d wf => ?write, fun a n wf => ?read, fun a n s some few out => ?readOut,
    fun a n s bad => ?readBad, fun a d s some few out => ?writeOut, fun a d s bad => ?writeBad⟩
  case taken =>
    refine ⟨_, exec_hostWindowAccess_of_wf wf s, onlyIn_setPort s _, HostPort.take_readData a s.port, fun room none => ?_,
      fun full => ?_⟩
    · rw [State.setPort_port, HostPort.take_of_room room none]
      exact ⟨rfl, none⟩
    · rw [State.setPort_port, HostPort.take_of_full full]
      exact ⟨rfl, rfl⟩
  case write =>
    obtain ⟨some, few, -⟩ := of_decide_eq_true wf
    exact ⟨splitAccess_write_short, splitAccess_write_long, fun p => splitAccess_write_block some few,
      fun m x wf => splitAccess_write_bytes wf a d x⟩
  case read =>
    obtain ⟨some, few, -⟩ := of_decide_eq_true wf
    exact ⟨splitAccess_read_short, splitAccess_read_long, fun p => splitAccess_read_block some few,
      fun m => splitAccess_read_bytes m a n⟩
  case readOut => rw [exec_hostWindowAccess_read, if_neg (by omega), if_pos (by exact out)]
  case readBad => rw [exec_hostWindowAccess_read, if_pos bad]
  case writeOut => rw [exec_hostWindowAccess_write, if_neg (by omega), if_pos (by exact out)]
  case writeBad => rw [exec_hostWindowAccess_write, if_pos (bad.imp_left fun h => by rw [h]; rfl)]

/-! ## What an engine offers (R122, R123) -/

theorem Engine.outstanding_isNone_iff (e : Engine) (id : LaneId) :
    (e.outstanding id).isNone = true ↔ ∀ b ∈ e.flight, b.lane = id → b.stale = true := by
  simp [Engine.outstanding, Option.isNone_iff_eq_none]

theorem Engine.free_of_none {e : Engine} {id : LaneId} (h : (e.outstanding id).isNone = true) :
    e.free id = e.capacity - (e.lane id).words.length := by
  rw [Engine.free, Option.isNone_iff_eq_none.1 h]
  rfl

theorem Engine.capacity_eq (e : Engine) : e.capacity = if e.old.isSome then 512 else 1024 := rfl

theorem Engine.ready_iff (e : Engine) (id : LaneId) : e.ready id = true ↔ LaneReady e id := by
  have lane : (id == .main || e.old.isSome) = true ↔ (id = .old → e.old.isSome = true) := by
    cases id <;> simp
  simp only [Engine.ready, Bool.and_eq_true, decide_eq_true_eq, lane, LaneReady, and_assoc]
  refine and_congr_right fun _ => and_congr_right fun _ => ?_
  rw [Engine.outstanding_isNone_iff]
  refine and_congr_right fun clear => and_congr_right fun some => ?_
  rw [Engine.free_of_none ((Engine.outstanding_isNone_iff e id).2 clear), Lane.burstLength, Engine.capacity_eq]
  cases e.old.isSome <;> simp only [Bool.false_eq_true, if_false, if_true] <;> omega

theorem offers_old_iff (e : Engine) : Offers e .old ↔
    LaneReady e .old ∧ (LaneReady e .main → (e.lane .old).words.length ≤ (e.lane .main).words.length) := by
  refine and_congr_right fun _ => ⟨fun h main => (h .main (by decide) main).1, fun h other ne ready => ?_⟩
  cases other with
  | old => exact absurd rfl ne
  | main => exact ⟨h ready, fun _ => rfl⟩

theorem offers_main_iff (e : Engine) : Offers e .main ↔
    LaneReady e .main ∧ (LaneReady e .old → (e.lane .main).words.length < (e.lane .old).words.length) := by
  refine and_congr_right fun _ => ⟨fun h old => ?_, fun h other ne ready => ?_⟩
  · obtain ⟨le, eq⟩ := h .old (by decide) old
    exact Nat.lt_of_le_of_ne le fun same => absurd (eq same) (by decide)
  · cases other with
    | old => exact ⟨(h ready).le, fun same => absurd same (h ready).ne⟩
    | main => exact absurd rfl ne

theorem Engine.offer_iff (e : Engine) (id : LaneId) : e.offer = some id ↔ Offers e id := by
  have offers : Offers e id ↔ match id with
      | .old => e.ready .old = true ∧
          (e.ready .main = true → (e.lane .old).words.length ≤ (e.lane .main).words.length)
      | .main => e.ready .main = true ∧
          (e.ready .old = true → (e.lane .main).words.length < (e.lane .old).words.length) := by
    cases id with
    | old => simp only [Engine.ready_iff, offers_old_iff]
    | main => simp only [Engine.ready_iff, offers_main_iff]
  rw [offers, Engine.offer]
  by_cases fewer : (e.lane .old).words.length ≤ (e.lane .main).words.length <;>
    cases id <;> cases e.ready .old <;> cases e.ready .main <;> simp [fewer, ← Nat.not_le]

theorem Engine.waiting_iff (e : Engine) (urgent : Bool) :
    e.waiting urgent = true ↔ ∃ id, Offers e id ∧ (urgent = true ↔ (e.lane id).words.length < 128) := by
  simp only [← Engine.offer_iff, Engine.waiting]
  cases e.offer with
  | none => simp
  | some id =>
    have urgently : (urgent == decide ((e.lane id).words.length < 128)) = true ↔
        (urgent = true ↔ (e.lane id).words.length < 128) := by
      rw [beq_iff_eq, Bool.eq_iff_iff, decide_eq_true_iff]
    refine urgently.trans ⟨fun h => ⟨id, rfl, h⟩, ?_⟩
    rintro ⟨other, same, h⟩
    cases same
    exact h

/-! ## The grant of an engine (R122, R124, R129) -/

theorem Lane.granted_within {l : Lane} (h : 16 < l.remainder) :
    l.granted = { l with remainder := l.remainder - 16 } := by
  have burst : l.burstLength = 16 := Nat.min_eq_left h.le
  simp only [Lane.granted, burst]
  exact if_neg (by omega)

theorem Lane.granted_last {l : Lane} (h : l.remainder ≤ 16) :
    l.granted = { l with
      fetchRow := l.fetchRow + 1
      remainder := if l.fetchRow + 1 < l.content.rIn then l.content.words else 0 } := by
  have burst : l.burstLength = l.remainder := Nat.min_eq_right h
  simp only [Lane.granted, burst, Nat.sub_self, if_true]

/-- The burst of a lane's next words, up to 16 of its row (R122, R124). -/
def Engine.nextBurst (m : List Host.Cell) (e : Engine) (id : LaneId) : Burst :=
  { lane := id
    row := (e.lane id).fetchRow
    stale := false
    words := burstWords m (e.lane id).burstStart (e.lane id).burstLength }

theorem Engine.grant_offered {e : Engine} {id : LaneId} (h : e.offer = some id) (m : List Host.Cell) :
    e.grant m = { e.setLane id (e.lane id).granted with flight := e.flight ++ [e.nextBurst m id] } := by
  simp only [Engine.grant, h]
  rfl

theorem Engine.setLane_old_isSome (e : Engine) (id : LaneId) (l : Lane) :
    (e.setLane id l).old.isSome = e.old.isSome := by
  cases id with
  | main => rfl
  | old => exact Option.isSome_map

/-- Writing a lane changes the lanes alone. -/
theorem Engine.setLane_eq (e : Engine) (id : LaneId) (l : Lane) :
    e.setLane id l = { e with main := (e.setLane id l).main, old := (e.setLane id l).old } := by
  cases id <;> rfl

theorem exec_grantDecision (s : State) : exec .grantDecision s = .next (grantDecision s) := rfl

theorem Engine.exists_offer_of_waiting {e : Engine} {urgent : Bool} (h : e.waiting urgent = true) :
    ∃ id, e.offer = some id := by
  obtain ⟨id, offers, -⟩ := (e.waiting_iff urgent).1 h
  exact ⟨id, (e.offer_iff id).2 offers⟩

/-- An engine that waits, granted (R122). -/
theorem engineGranted_grantEngine {k : Nat} {s : State} {urgent : Bool} (there : k < s.tiles.length)
    (waits : (s.tile k).engine.waiting urgent = true) : EngineGranted k s (grantEngine k urgent s) := by
  obtain ⟨id, offered⟩ := Engine.exists_offer_of_waiting waits
  have offers := ((s.tile k).engine.offer_iff id).1 offered
  set e := (s.tile k).engine
  set flight := e.flight ++ [e.nextBurst s.mem id]
  have granted : e.grant s.mem = { e.setLane id (e.lane id).granted with flight := flight } :=
    Engine.grant_offered offered s.mem
  have tile : (grantEngine k urgent s).tile k = { s.tile k with engine := e.grant s.mem } :=
    State.tile_updTile_same (fun t => { t with engine := t.engine.grant s.mem }) there
  have engine : ((grantEngine k urgent s).tile k).engine = { e.setLane id (e.lane id).granted with flight := flight } := by
    rw [tile]; exact granted
  have lane (other : LaneId) : ((grantEngine k urgent s).tile k).engine.lane other =
      (e.setLane id (e.lane id).granted).lane other := by
    rw [engine]; exact Engine.lane_of_flight _ _ other
  have same : ((grantEngine k urgent s).tile k).engine.lane id = (e.lane id).granted :=
    (lane id).trans (Engine.lane_setLane_same offers.1.2.1 _)
  refine ⟨?_, ?_, ?_, id, offers, ?_, fun within => ?_, fun last => ?_, fun other ne => ?_⟩
  · rw [tile]
  · rw [engine, Engine.setLane_eq]
  · rw [engine]; exact Engine.setLane_old_isSome e id _
  · rw [engine]; rfl
  · exact same.trans (Lane.granted_within within)
  · exact same.trans (Lane.granted_last last)
  · exact (lane other).trans (Engine.lane_setLane_ne ne _)

/-- The first engine that waits in counting upward and round from a pointer (R129). -/
theorem pickEngine_of_firstAfter {pointer k : Nat} {urgent : Bool} {s : State} (h : FirstAfter pointer k urgent s) :
    pickEngine pointer urgent s = some k := by
  obtain ⟨small, waits, ahead⟩ := h
  set i := (k + 16 - (pointer + 1) % 16) % 16
  have ring : (pointer + 1 + i) % 16 = k := by omega
  rw [pickEngine, List.find?_map, Option.map_eq_some_iff]
  refine ⟨i, ?_, ring⟩
  rw [List.find?_range_eq_some]
  refine ⟨?_, List.mem_range.2 (Nat.mod_lt _ (by decide)), fun j small => ?_⟩
  · simpa [Config.tileCount, ring] using waits
  · simpa [Config.tileCount] using ahead j small

theorem pickEngine_eq_none {pointer : Nat} {urgent : Bool} {s : State}
    (h : ∀ k, k < 16 → (s.tile k).engine.waiting urgent = false) : pickEngine pointer urgent s = none := by
  rw [pickEngine, List.find?_eq_none]
  intro k hk
  obtain ⟨i, -, rfl⟩ := List.mem_map.1 hk
  rw [Bool.not_eq_true]
  exact h _ (Nat.mod_lt _ (by decide))

theorem otherTilesKept_grantEngine (k : Nat) (urgent : Bool) (s : State) :
    OtherTilesKept k s (grantEngine k urgent s) :=
  have set := onlyIn_setArbiter (s.updTile k fun t => { t with engine := t.engine.grant s.mem })
    (if urgent then { s.arbiter with urgentPtr := k } else { s.arbiter with otherPtr := k })
  (otherTilesKept_updTile k s _).trans (otherTilesKept_of_tiles set.tiles)

/-- Settles O36. -/
theorem urgentEngineIsGrantedFirst : Obligations.UrgentEngineIsGrantedFirst := by
  refine ⟨fun s k first there => ?_, Engine.waiting_iff⟩
  have picked : grantDecision s = grantEngine k true s := by
    simp only [grantDecision, pickEngine_of_firstAfter first]
  refine ⟨grantEngine k true s, (exec_grantDecision s).trans (congrArg _ picked), rfl, otherTilesKept_grantEngine k true s, onlyIn_grantEngine k true s,
    engineGranted_grantEngine there first.2.1⟩

/-! ## The host's burst (R129, R130, R168) -/

section
variable {s : State} (calm : ∀ k, k < 16 → (s.tile k).engine.waiting true = false)
include calm

theorem grantDecision_host (h : s.port.accesses ≠ []) : grantDecision s = grantHost s := by
  simp only [grantDecision, pickEngine_eq_none calm, if_pos h]

theorem grantDecision_report (h : s.port.accesses = []) {i : Nat} (request : s.reportRequest = some i) :
    grantDecision s = grantReport i s := by
  simp only [grantDecision, pickEngine_eq_none calm, h, ne_eq, not_true_eq_false, if_false, request]

theorem grantDecision_place4 (h : s.port.accesses = []) (request : s.reportRequest = none) :
    grantDecision s = grantPlace4 s := by
  simp only [grantDecision, pickEngine_eq_none calm, h, ne_eq, not_true_eq_false, if_false, request]

end

theorem AccessPart.perform_write (m : List Host.Cell) (a : Nat) (d : List Byte) :
    (AccessPart.write a d).perform m = ([], Memory.writeBytes m a d) := rfl

theorem AccessPart.perform_read (m : List Host.Cell) (a n : Nat) :
    (AccessPart.read a n).perform m = (Memory.readBytes m a n, m) := rfl

section
variable {s : State} {x : PortAccess} {rest : List PortAccess} {p : AccessPart} {more : List AccessPart}
  (oldest : s.port.accesses = x :: rest) (next : x.parts = p :: more)
include oldest next

theorem grantHost_more (h : more ≠ []) :
    grantHost s = (s.setMem (p.perform s.mem).2).setPort
      { s.port with accesses := ⟨more, x.got ++ (p.perform s.mem).1⟩ :: rest } := by
  simp only [grantHost, oldest, next, if_neg h]
  rfl

theorem grantHost_last (h : more = []) :
    grantHost s = countCarried ((s.setMem (p.perform s.mem).2).setPort
      (s.port.carried (x.got ++ (p.perform s.mem).1) rest)) := by
  simp only [grantHost, oldest, next, if_pos h]
  rfl

end

theorem countCarried_behind {s : State} {w : Adoption} {n : Nat} (work : s.window.adoption = some w)
    (phase : w.phase = .behindHost n) :
    countCarried s = s.setWindow { s.window with adoption := some { w with phase := .behindHost (n - 1) } } := by
  simp only [countCarried, work, phase]

theorem countCarried_other {s : State} (h : ∀ w n, s.window.adoption = some w → w.phase ≠ .behindHost n) :
    countCarried s = s := by
  unfold countCarried
  cases work : s.window.adoption with
  | none => rfl
  | some w =>
    cases phase : w.phase with
    | behindHost n => exact absurd phase (h w n work)
    | presented => simp only [phase]
    | granted data => simp only [phase]

theorem HostPort.carried_empty {p : HostPort} (h : p.backlog = []) (got : List Byte) (rest : List PortAccess) :
    (p.carried got rest).accesses = rest := by
  simp only [HostPort.carried, h]

theorem HostPort.carried_waiting {p : HostPort} {b : WindowAccess} {waiting : List WindowAccess}
    (h : p.backlog = b :: waiting) (got : List Byte) (rest : List PortAccess) :
    (p.carried got rest).accesses = rest ++ [⟨splitAccess b, []⟩] ∧ (p.carried got rest).backlog = waiting := by
  simp only [HostPort.carried, h, and_self]

theorem HostPort.carried_readData {got : List Byte} (h : got ≠ []) (rest : List PortAccess) (p : HostPort) :
    (p.carried got rest).readData = got := by
  simp only [HostPort.carried, if_neg h]
  split <;> rfl

section
variable {s : State} {x : PortAccess} {rest : List PortAccess} {p : AccessPart} {more : List AccessPart}
  (oldest : s.port.accesses = x :: rest) (next : x.parts = p :: more)
include oldest next

theorem grantHost_mem : (grantHost s).mem = (p.perform s.mem).2 := by
  by_cases last : more = []
  · rw [grantHost_last oldest next last, (onlyIn_countCarried _).mem]
    rfl
  · rw [grantHost_more oldest next last]
    rfl

theorem grantHost_port_last (last : more = []) :
    (grantHost s).port = s.port.carried (x.got ++ (p.perform s.mem).1) rest := by
  rw [grantHost_last oldest next last, (onlyIn_countCarried _).port]
  rfl

end

/-- Settles O37. -/
theorem hostBurstIsGrantedNext : Obligations.HostBurstIsGrantedNext := by
  intro s x rest p more calm oldest next wf
  have host : grantDecision s = grantHost s := grantDecision_host calm (by simp [oldest])
  refine ⟨grantHost s, (exec_grantDecision s).trans (congrArg _ host), onlyIn_grantHost s, ?write, ?read,
    fun h => ?more, fun last empty => ?empty, fun last b waiting backlog => ?waiting, fun a n last reads some => ?data,
    fun w n last work phase => ?carried, fun kept => ?window⟩
  case write =>
    rintro a d rfl y
    rw [grantHost_mem oldest next]
    exact Memory.read_writeBytes a y d wf
  case read =>
    rintro a n rfl
    exact grantHost_mem oldest next
  case more =>
    rw [grantHost_more oldest next h]
    refine ⟨rfl, rfl, ?_, ?_⟩
    · rintro a d rfl
      exact congrArg (fun got => (⟨more, got⟩ : PortAccess) :: rest) (List.append_nil x.got)
    · rintro a n rfl
      rfl
  case empty => rw [grantHost_port_last oldest next last, HostPort.carried_empty empty]
  case waiting => rw [grantHost_port_last oldest next last]; exact HostPort.carried_waiting backlog _ _
  case data =>
    subst reads
    rw [grantHost_port_last oldest next last]
    refine HostPort.carried_readData (List.append_ne_nil_of_right_ne_nil _ ?_) rest s.port
    exact List.ne_nil_of_length_pos (by simpa [AccessPart.perform, Memory.readBytes] using some)
  case carried =>
    rw [grantHost_last oldest next last]
    set u := (s.setMem (p.perform s.mem).2).setPort (s.port.carried (x.got ++ (p.perform s.mem).1) rest)
    rw [countCarried_behind (s := u) work phase]
    rfl
  case window =>
    by_cases last : more = []
    · have waits (w : Adoption) (n : Nat) (work : s.window.adoption = some w) : w.phase ≠ .behindHost n :=
        kept.elim (absurd last) (fun h => h w n work)
      rw [grantHost_last oldest next last]
      set u := (s.setMem (p.perform s.mem).2).setPort (s.port.carried (x.got ++ (p.perform s.mem).1) rest)
      rw [countCarried_other (s := u) waits]
      rfl
    · rw [grantHost_more oldest next last]
      rfl

/-! ## The shared place and the non-urgent engines -/

theorem State.plateRequest_of_toRead {s : State} {a : Attempt} {i : Nat} {rest : List Nat}
    (attempt : s.commit.attempt = some a) (h : a.toRead = i :: rest) : s.plateRequest = some i := by
  simp only [State.plateRequest, attempt, h, List.head?_cons]

theorem grantPlace4_plate {s : State} {i : Nat} (h : s.plateRequest = some i) : grantPlace4 s = grantPlate i s := by
  simp only [grantPlace4, h]

section
variable {s : State} (none : s.plateRequest = none)
include none

theorem grantPlace4_follower (h : s.followerWaits = true) : grantPlace4 s = grantFollower s := by
  simp only [grantPlace4, none, h, if_true]

theorem grantPlace4_profile (follower : s.followerWaits = false) (h : s.profileWaits = true) :
    grantPlace4 s = grantProfile s := by
  simp only [grantPlace4, none, follower, Bool.false_eq_true, if_false, h, if_true]

theorem grantPlace4_other (follower : s.followerWaits = false) (profile : s.profileWaits = false) :
    grantPlace4 s = grantOther s := by
  simp only [grantPlace4, none, follower, profile, Bool.false_eq_true, if_false]

end

theorem grantPlate_eq {s : State} {a : Attempt} {i : Nat} {rest : List Nat} (attempt : s.commit.attempt = some a)
    (h : a.toRead = i :: rest) :
    grantPlate i s = s.setCommit { s.commit with attempt := some { a with
      toRead := rest
      plates := a.plates ++ [(i, plateEntryOf (Memory.readBytes s.mem (s.prof.plateTable + 32 * i) 32))] } } := by
  simp only [grantPlate, attempt, h, List.tail_cons]

theorem grantFollower_record {s : State} {a : Nat} {arrived : List Byte}
    (h : s.follower.fetch = some (.record a arrived none)) :
    grantFollower s = s.setFollower { s.follower with fetch := some (.record a arrived (some
      (Memory.readBytes s.mem (8 * (recordRequest a arrived).1) (8 * (recordRequest a arrived).2)))) } := by
  simp only [grantFollower, h]

theorem grantFollower_link {s : State} {a : Nat} (h : s.follower.fetch = some (.link a none)) :
    grantFollower s = s.setFollower { s.follower with
      fetch := some (.link a (some (Memory.readWord s.mem (a / 8 + 4)))) } := by
  simp only [grantFollower, h]

theorem plateStateOf_eq (n : Nat) :
    plateStateOf n = match n with | 0 => .empty | 1 => .loading | 2 => .ready | _ => .other := by
  match n with
  | 0 | 1 | 2 | _ + 3 => rfl

/-- Settles O40. -/
theorem sharedPlaceAndNonUrgentEngines : Obligations.SharedPlaceAndNonUrgentEngines := by
  intro s calm port report
  have place : exec .grantDecision s = .next (grantPlace4 s) :=
    (exec_grantDecision s).trans (congrArg _ (grantDecision_place4 calm port report))
  refine ⟨fun a i rest attempt toRead => ?plate, fun none a fetch => ?record, fun none a fetch => ?link,
    fun none follower a work phase => ?profile, fun none follower profile k first there => ?engine⟩
  case plate =>
    refine ⟨_, plateEntryOf (Memory.readBytes s.mem (s.prof.plateTable + 32 * i) 32), place, ?_⟩
    rw [grantPlace4_plate (State.plateRequest_of_toRead attempt toRead), grantPlate_eq attempt toRead]
    exact ⟨onlyIn_setCommit s _, rfl, plateStateOf_eq _, rfl, rfl, rfl, rfl⟩
  case record =>
    refine ⟨_, place, ?_⟩
    rw [grantPlace4_follower none (by simp only [State.followerWaits, fetch]), grantFollower_record fetch]
    exact ⟨onlyIn_setFollower s _, rfl⟩
  case link =>
    refine ⟨_, place, ?_⟩
    rw [grantPlace4_follower none (by simp only [State.followerWaits, fetch]), grantFollower_link fetch]
    exact ⟨onlyIn_setFollower s _, rfl⟩
  case profile =>
    have waits : s.profileWaits = true := by simp only [State.profileWaits, work, phase, decide_true]
    have granted : grantProfile s = s.setWindow { s.window with adoption := some { a with
        phase := .granted (Memory.readBytes s.mem a.arg.toNat (min 104 (0x20000000 - a.arg.toNat))) } } := by
      simp only [grantProfile, work, Config.showBytes]
    refine ⟨_, place, ?_⟩
    rw [grantPlace4_profile none follower waits, granted]
    exact ⟨onlyIn_setWindow s _, rfl⟩
  case engine =>
    have granted : grantOther s = grantEngine k false s := by
      simp only [grantOther, pickEngine_of_firstAfter first]
    refine ⟨_, place, ?_⟩
    rw [grantPlace4_other none follower profile, granted]
    exact ⟨rfl, otherTilesKept_grantEngine k false s, onlyIn_grantEngine k false s,
      engineGranted_grantEngine there first.2.1⟩

end Sys2Proof.Machine
end

section
/-! The Report Writer: the write it presents, and the bytes of its bursts (R50 to R52, R182 to R184, R187, R188). -/

set_option Elab.async false

namespace Sys2Proof.Machine

/-! ## The write presented -/

def QueueItem.isFault : QueueItem → Bool
  | .fault _ _ => true
  | .outcome _ _ | .refresh _ _ _ _ => false

theorem QueueItem.isFault_iff (x : QueueItem) : x.isFault = true ↔ ∃ f g, x = .fault f g := by
  cases x <;> simp [QueueItem.isFault]

/-- A write at position `i` that is not wholly granted may be presented there, `f` telling that a fault record stands
before it (R24, R52, R93, R182, R184). -/
def Presentable (fading : List Nat) (i : Nat) (f : Bool) (x : QueueItem) : Prop :=
  (∀ g n a b, x = .refresh g n a b → i = 0) ∧ (∀ r granted, x = .fault r granted → f = false) ∧
    ∀ record granted, x = .outcome ⟨record, .released⟩ granted → record ∉ fading

section
variable {fading : List Nat} {i : Nat} {f : Bool} {x : QueueItem} {rest : List QueueItem}

theorem presented_of_granted (h : WhollyGranted x) :
    presented fading i f (x :: rest) = presented fading (i + 1) (f || x.isFault) rest := by
  cases x with
  | outcome w granted => simp [presented, QueueItem.isFault, show granted = true from h]
  | fault r granted => simp [presented, QueueItem.isFault, show granted = true from h]
  | refresh g n a b => simp [presented, QueueItem.isFault, refreshBursts, show 6 ≤ n from h]

theorem presented_of_presentable (waits : ¬ WhollyGranted x) (h : Presentable fading i f x) :
    presented fading i f (x :: rest) = some i := by
  obtain ⟨refresh, fault, released⟩ := h
  cases x with
  | outcome w granted =>
    have fresh : ¬ (w.kind = .released ∧ w.record ∈ fading) := by
      rintro ⟨kind, h⟩
      exact released w.record granted (by rw [← kind]) h
    simp only [presented, if_neg fresh, show granted = false by simpa [WhollyGranted] using waits, Bool.false_eq_true,
      if_false]
  | fault r granted =>
    simp only [presented, show granted = false by simpa [WhollyGranted] using waits, fault r granted rfl,
      Bool.false_eq_true, if_false]
  | refresh g n a b =>
    have few : ¬ refreshBursts ≤ n := waits
    simp only [presented, if_neg few, refresh g n a b rfl, if_true]

theorem presented_of_not_presentable (waits : ¬ WhollyGranted x) (h : ¬ Presentable fading i f x) :
    presented fading i f (x :: rest) = none := by
  cases x with
  | outcome w granted =>
    have holds : w.kind = .released ∧ w.record ∈ fading := by
      by_contra fresh
      refine h ⟨fun _ _ _ _ h => (nomatch h), fun _ _ h => (nomatch h), fun record g same => ?_⟩
      cases same
      exact fun h => fresh ⟨rfl, h⟩
    simp only [presented, if_pos holds, show granted = false by simpa [WhollyGranted] using waits, Bool.false_eq_true,
      if_false]
  | fault r granted =>
    have ahead : f = true := by
      by_contra none
      exact h ⟨fun _ _ _ _ h => (nomatch h), fun _ _ _ => Bool.eq_false_of_not_eq_true none, fun _ _ h => (nomatch h)⟩
    simp only [presented, show granted = false by simpa [WhollyGranted] using waits, ahead, Bool.false_eq_true,
      if_false, if_true]
  | refresh g n a b =>
    have few : ¬ refreshBursts ≤ n := waits
    have behind : i ≠ 0 := fun first => h ⟨fun _ _ _ _ _ => first, fun _ _ h => (nomatch h), fun _ _ h => (nomatch h)⟩
    simp only [presented, if_neg few, if_neg behind]

end

/-- The write at place `j` of a queue that begins at position `i` is presented. -/
def PresentsFrom (fading : List Nat) (i : Nat) (f : Bool) (q : List QueueItem) (j : Nat) : Prop :=
  ∃ x, q[j]? = some x ∧ ¬ WhollyGranted x ∧ (∀ m y, m < j → q[m]? = some y → WhollyGranted y) ∧
    Presentable fading (i + j) (f || (q.take j).any (·.isFault)) x

theorem presentsFrom_zero_iff (fading : List Nat) (i : Nat) (f : Bool) (x : QueueItem) (rest : List QueueItem) :
    PresentsFrom fading i f (x :: rest) 0 ↔ ¬ WhollyGranted x ∧ Presentable fading i f x := by
  simp [PresentsFrom]

theorem presentsFrom_succ_iff (fading : List Nat) (i : Nat) (f : Bool) (x : QueueItem) (rest : List QueueItem) (j : Nat) :
    PresentsFrom fading i f (x :: rest) (j + 1) ↔
      WhollyGranted x ∧ PresentsFrom fading (i + 1) (f || x.isFault) rest j := by
  have ahead : (∀ m y, m < j + 1 → (x :: rest)[m]? = some y → WhollyGranted y) ↔
      WhollyGranted x ∧ ∀ m y, m < j → rest[m]? = some y → WhollyGranted y := by
    refine ⟨fun h => ⟨h 0 x (by omega) rfl, fun m y small at_m => h (m + 1) y (by omega) at_m⟩, ?_⟩
    rintro ⟨first, others⟩ (_ | m) y small at_m
    · cases at_m; exact first
    · exact others m y (by omega) at_m
  simp only [PresentsFrom, ahead, List.getElem?_cons_succ, List.take_succ_cons, List.any_cons, Bool.or_assoc,
    show i + (j + 1) = i + 1 + j by omega]
  constructor
  · rintro ⟨y, at_j, waits, ⟨first, others⟩, fit⟩
    exact ⟨first, y, at_j, waits, others, fit⟩
  · rintro ⟨first, y, at_j, waits, others, fit⟩
    exact ⟨y, at_j, waits, ⟨first, others⟩, fit⟩

theorem presented_eq_some_iff (fading : List Nat) (q : List QueueItem) (i : Nat) (f : Bool) (n : Nat) :
    presented fading i f q = some n ↔ ∃ j, n = i + j ∧ PresentsFrom fading i f q j := by
  induction q generalizing i f with
  | nil => simp [presented, PresentsFrom]
  | cons x rest ih =>
    by_cases granted : WhollyGranted x
    · rw [presented_of_granted granted, ih]
      constructor
      · rintro ⟨j, rfl, h⟩
        exact ⟨j + 1, by omega, (presentsFrom_succ_iff ..).2 ⟨granted, h⟩⟩
      · rintro ⟨_ | j, rfl, h⟩
        · exact absurd granted ((presentsFrom_zero_iff ..).1 h).1
        · exact ⟨j, by omega, ((presentsFrom_succ_iff ..).1 h).2⟩
    · have first : (∃ j, n = i + j ∧ PresentsFrom fading i f (x :: rest) j) ↔ n = i ∧ Presentable fading i f x := by
        constructor
        · rintro ⟨_ | j, rfl, h⟩
          · exact ⟨rfl, ((presentsFrom_zero_iff ..).1 h).2⟩
          · exact absurd ((presentsFrom_succ_iff ..).1 h).1 granted
        · rintro ⟨rfl, fit⟩
          exact ⟨0, rfl, (presentsFrom_zero_iff ..).2 ⟨granted, fit⟩⟩
      rw [first]
      by_cases fit : Presentable fading i f x
      · simp [presented_of_presentable granted fit, fit, eq_comm]
      · simp [presented_of_not_presentable granted fit, fit]

theorem any_isFault_take_eq_false (q : List QueueItem) (i : Nat) :
    (q.take i).any (·.isFault) = false ↔ ∀ j f g, j < i → q[j]? ≠ some (.fault f g) := by
  simp only [List.any_eq_false, QueueItem.isFault_iff, List.mem_iff_getElem?, List.getElem?_take]
  constructor
  · intro h j f g small at_j
    exact h (.fault f g) ⟨j, by rw [if_pos small]; exact at_j⟩ ⟨f, g, rfl⟩
  · rintro h x ⟨j, at_j⟩ ⟨f, g, rfl⟩
    split at at_j
    next small => exact h j f g small at_j
    next => cases at_j

/-- The Report Writer presents what R52, R93, R182 and R184 say. -/
theorem reportRequest_iff (s : State) (i : Nat) : s.reportRequest = some i ↔ Presents s i := by
  have from_zero : s.reportRequest = some i ↔ PresentsFrom s.fadingFrom 0 false s.report.queue i := by
    rw [State.reportRequest, presented_eq_some_iff]
    constructor
    · rintro ⟨j, rfl, h⟩
      rwa [Nat.zero_add]
    · exact fun h => ⟨i, (Nat.zero_add i).symm, h⟩
  rw [from_zero]
  refine exists_congr fun x => and_congr_right fun _ => and_congr_right fun _ => and_congr_right fun _ => ?_
  simp only [Presentable, Nat.zero_add, Bool.false_or, any_isFault_take_eq_false, State.mem_fadingFrom]

theorem reportRequest_none_iff (s : State) : s.reportRequest = none ↔ ∀ i, ¬ Presents s i := by
  rw [Option.eq_none_iff_forall_ne_some]
  exact forall_congr' fun i => not_congr (reportRequest_iff s i)

/-! ## The grant of its burst -/

theorem grantReport_eq {s : State} {i : Nat} {x : QueueItem} (h : s.report.queue[i]? = some x) :
    grantReport i s =
      (s.setMem (x.perform s.prof.statusPage (s.flag .fault) s.mem).2).setReport
        { s.report with queue := s.report.queue.set i (x.perform s.prof.statusPage (s.flag .fault) s.mem).1 } := by
  simp only [grantReport, h]

/-- A grant changes an item of the write queue only where the Report Writer presents it. -/
theorem grantDecision_queue {s : State} {i : Nat} (h : (grantDecision s).report.queue[i]? ≠ s.report.queue[i]?) :
    s.reportRequest = some i ∧ (grantDecision s).tiles = s.tiles := by
  unfold grantDecision at h ⊢
  split at h
  next k _ => exact absurd (congrArg (fun r : Report => r.queue[i]?) (onlyIn_grantEngine k true s).report) h
  next =>
    split at h
    next => exact absurd (congrArg (fun r : Report => r.queue[i]?) (onlyIn_grantHost s).report) h
    next noHost =>
      split at h
      next j request =>
        have tiles := (onlyIn_grantReport j s).tiles
        simp only [if_neg noHost, tiles, request, and_true, Option.some.injEq]
        by_contra other
        refine h ?_
        cases item : s.report.queue[j]? with
        | none => simp only [grantReport, item]
        | some x =>
          rw [grantReport_eq item]
          exact List.getElem?_set_ne other
      next => exact absurd (congrArg (fun r : Report => r.queue[i]?) (onlyIn_grantPlace4 s).report) h

/-! ## Bytes read back -/

/-- Two runs of bytes share no offset. -/
def RunsApart (r q : Nat × List Byte) : Prop := r.1 + r.2.length ≤ q.1 ∨ q.1 + q.2.length ≤ r.1

theorem Memory.readBytes_congr {m m' : List Host.Cell} {a n : Nat}
    (h : ∀ i, i < n → Memory.read m (a + i) = Memory.read m' (a + i)) :
    Memory.readBytes m a n = Memory.readBytes m' a n :=
  List.map_congr_left fun i hi => h i (List.mem_range.1 hi)

theorem Memory.readBytes_writeBytes_sub {m : List Host.Cell} (wf : Memory.wf m = true) (a : Nat) {bs : List Byte}
    {k n : Nat} (h : k + n ≤ bs.length) :
    Memory.readBytes (Memory.writeBytes m a bs) (a + k) n = (bs.drop k).take n := by
  refine List.ext_getElem (by simp [Memory.readBytes]; omega) fun i small _ => ?_
  have small : i < n := by simpa [Memory.readBytes] using small
  have inside : a ≤ a + k + i ∧ a + k + i < a + bs.length := by omega
  simp only [Memory.readBytes, List.getElem_map, List.getElem_range, Memory.read_writeBytes a _ bs wf, if_pos inside,
    List.getElem_take, List.getElem_drop, show a + k + i - a = k + i by omega]
  exact (List.getElem_eq_getD 0).symm

theorem Memory.readBytes_writeBytes {m : List Host.Cell} (wf : Memory.wf m = true) (a : Nat) (bs : List Byte) :
    Memory.readBytes (Memory.writeBytes m a bs) a bs.length = bs := by
  have := Memory.readBytes_writeBytes_sub wf a (bs := bs) (k := 0) (n := bs.length) (by omega)
  simpa using this

theorem Memory.readBytes_writeBytes_outside {m : List Host.Cell} (wf : Memory.wf m = true) {a b n : Nat} {bs : List Byte}
    (h : a + bs.length ≤ b ∨ b + n ≤ a) :
    Memory.readBytes (Memory.writeBytes m a bs) b n = Memory.readBytes m b n :=
  Memory.readBytes_congr fun i small => by rw [Memory.read_writeBytes a _ bs wf, if_neg (by omega)]

theorem Memory.readBytes_writeRuns_outside {m : List Host.Cell} (wf : Memory.wf m = true) (base : Nat)
    {runs : List (Nat × List Byte)} {o n : Nat} (h : ∀ r ∈ runs, o + n ≤ r.1 ∨ r.1 + r.2.length ≤ o) :
    Memory.readBytes (writeRuns m base runs) (base + o) n = Memory.readBytes m (base + o) n :=
  Memory.readBytes_congr fun i small => Memory.read_writeRuns_outside base _ runs wf fun r hr => by
    have := h r hr
    omega

/-- A run reads back where no other run touches it. -/
theorem Memory.readBytes_writeRuns {m : List Host.Cell} (wf : Memory.wf m = true) (base : Nat)
    {runs : List (Nat × List Byte)} (apart : runs.Pairwise RunsApart) {o : Nat} {bs : List Byte} (h : (o, bs) ∈ runs) :
    Memory.readBytes (writeRuns m base runs) (base + o) bs.length = bs := by
  induction runs generalizing m with
  | nil => cases h
  | cons r rest ih =>
    rw [List.pairwise_cons] at apart
    have wf' := Memory.wf_writeBytes (base + r.1) r.2 wf
    obtain rfl | h := List.mem_cons.1 h
    · refine (Memory.readBytes_writeRuns_outside wf' base (runs := rest) fun q hq => ?_).trans
        (Memory.readBytes_writeBytes wf (base + o) bs)
      exact apart.1 q hq
    · exact ih wf' apart.2 h

@[simp] theorem length_leBytes (n v : Nat) : (leBytes n v).length = n := by
  induction n generalizing v with
  | zero => rfl
  | succ n ih => simp [leBytes, ih]

@[simp] theorem length_frameBytes (v : Nat) : (frameBytes v).length = 8 := by simp [frameBytes]

theorem leNat_leBytes (n v : Nat) : leNat (leBytes n v) = v % 256 ^ n := by
  induction n generalizing v with
  | zero => simp [leBytes, leNat, Nat.mod_one]
  | succ n ih =>
    rw [leBytes, leNat, ih, BitVec.toNat_ofNat, show 256 ^ (n + 1) = 256 * 256 ^ n from Nat.pow_succ', Nat.mod_mul]

/-! ## Outcome writes (R187) -/

theorem OutcomeKind.runs_apart (k : OutcomeKind) (count : Nat) : (k.runs count).Pairwise RunsApart := by
  cases k <;> simp [OutcomeKind.runs, RunsApart]

/-- Every run of an outcome write lies in bytes 40..59 of its record. -/
theorem OutcomeKind.runs_inside (k : OutcomeKind) (count : Nat) :
    ∀ r ∈ k.runs count, 40 ≤ r.1 ∧ r.1 + r.2.length ≤ 60 := by
  cases k <;> simp [OutcomeKind.runs]

theorem timeFlags_eq (late refused : Bool) :
    timeFlags late refused = (if late then 1 else 0) + (if refused then 2 else 0) := by
  cases late <;> cases refused <;> rfl

theorem showFlags_eq (degraded clipped overBudget : Bool) :
    showFlags degraded clipped overBudget =
      (if degraded then 1 else 0) + (if clipped then 2 else 0) + (if overBudget then 4 else 0) := by
  cases degraded <;> cases clipped <;> cases overBudget <;> rfl

section
variable {m : List Host.Cell} (wf : Memory.wf m = true) (w : OutcomeWrite)
include wf

theorem OutcomeWrite.perform_outside {a : Nat} (h : a < w.record + 40 ∨ w.record + 60 ≤ a) :
    Memory.read (w.perform m) a = Memory.read m a :=
  Memory.read_writeRuns_outside _ _ _ wf fun r hr => by
    have := w.kind.runs_inside _ r hr
    omega

theorem OutcomeWrite.perform_run {o : Nat} {bs : List Byte} (h : (o, bs) ∈ w.kind.runs (passCountAt m w.record)) :
    Memory.readBytes (w.perform m) (w.record + o) bs.length = bs :=
  Memory.readBytes_writeRuns wf _ (w.kind.runs_apart _) h

theorem OutcomeWrite.perform_kept {o n : Nat}
    (h : ∀ r ∈ w.kind.runs (passCountAt m w.record), o + n ≤ r.1 ∨ r.1 + r.2.length ≤ o) :
    Memory.readBytes (w.perform m) (w.record + o) n = Memory.readBytes m (w.record + o) n :=
  Memory.readBytes_writeRuns_outside wf _ h

/-- A SHOWN write raises the pass count (R51). -/
theorem OutcomeWrite.perform_passCount (shown : w.kind.code = 3) :
    passCountAt (w.perform m) w.record = (passCountAt m w.record + 1) % 2 ^ 32 := by
  have run : (56, leBytes 4 (passCountAt m w.record + 1)) ∈ w.kind.runs (passCountAt m w.record) := by
    cases kind : w.kind with
    | sceneShown | keepShown => simp [OutcomeKind.runs]
    | _ => simp [kind, OutcomeKind.code] at shown
  have read := w.perform_run wf run
  rw [length_leBytes] at read
  rw [passCountAt, read, leNat_leBytes, show 256 ^ 4 = 2 ^ 32 from rfl]

end

/-- What show memory holds of the record after an outcome write is performed: the fields of the table of R187. -/
theorem OutcomeWrite.perform_fields {m : List Host.Cell} (wf : Memory.wf m = true) (w : OutcomeWrite) :
    let bytes (offset n : Nat) : List Byte := Memory.readBytes (w.perform m) (w.record + offset) n
    let kept (offset n : Nat) : Prop := bytes offset n = Memory.readBytes m (w.record + offset) n
    let late (l p : Bool) : Byte := (if l then 1 else 0) + (if p then 2 else 0)
    match w.kind with
      | .queued => bytes 40 16 = 1 :: List.replicate 15 0 ∧ kept 56 4
      | .committed v slip l =>
        bytes 40 1 = [2] ∧ kept 41 1 ∧ bytes 42 1 = [late l false] ∧ kept 43 1 ∧ bytes 44 2 = leBytes 2 slip ∧
        kept 46 2 ∧ bytes 48 8 = leBytes 6 v ++ [0, 0] ∧ kept 56 4
      | .sceneShown degraded clipped exceeds =>
        bytes 40 1 = [3] ∧ kept 41 2 ∧
        bytes 43 1 = [(if degraded then 1 else 0) + (if clipped then 2 else 0) + (if exceeds then 4 else 0)] ∧
        kept 44 12
      | .keepShown v slip l p =>
        bytes 40 1 = [3] ∧ kept 41 1 ∧ bytes 42 1 = [late l p] ∧ kept 43 1 ∧ bytes 44 2 = leBytes 2 slip ∧
        kept 46 2 ∧ bytes 48 8 = leBytes 6 v ++ [0, 0]
      | .done v slip l p =>
        bytes 40 1 = [5] ∧ kept 41 1 ∧ bytes 42 1 = [late l p] ∧ kept 43 1 ∧ bytes 44 2 = leBytes 2 slip ∧
        kept 46 2 ∧ bytes 48 8 = leBytes 6 v ++ [0, 0] ∧ kept 56 4
      | .skipped reason slip =>
        bytes 40 2 = [6, (match reason with | .notReady => 1 | .noTrigger => 2)] ∧ kept 42 2 ∧
        bytes 44 2 = leBytes 2 slip ∧ kept 46 14
      | .refused reason =>
        bytes 40 2 = [7, (match reason with
          | .badTime => 3 | .dupTile => 4 | .badTile => 5 | .badPlate => 6 | .badKind => 7)] ∧ kept 42 18
      | .released => bytes 40 1 = [4] ∧ kept 41 19
      | .withdrawn => bytes 40 1 = [8] ∧ kept 41 19 := by
  intro bytes kept late
  obtain ⟨runs, runs_eq⟩ : ∃ runs, runs = w.kind.runs (passCountAt m w.record) := ⟨_, rfl⟩
  have run {o n : Nat} {bs : List Byte} (h : (o, bs) ∈ runs) (len : bs.length = n := by simp) : bytes o n = bs :=
    len ▸ w.perform_run wf (runs_eq ▸ h)
  have outside {o n : Nat} (h : ∀ r ∈ runs, o + n ≤ r.1 ∨ r.1 + r.2.length ≤ o) : kept o n :=
    w.perform_kept wf (runs_eq ▸ h)
  have join {o n k : Nat} {x y : List Byte} (h : bytes o n = x) (h' : bytes (o + n) k = y) :
      bytes o (n + k) = x ++ y := by
    refine (Memory.readBytes_append _ (w.record + o) n k).trans ?_
    rw [Nat.add_assoc]
    exact congrArg₂ (· ++ ·) h h'
  cases kind : w.kind <;> simp only [kind, OutcomeKind.runs, OutcomeKind.code] at runs_eq
  case queued =>
    refine ⟨join (n := 1) (k := 15) (x := [1]) (run ?_) (run ?_), outside ?_⟩ <;> simp [runs_eq]
  case committed | done =>
    refine ⟨run ?_, outside ?_, run ?_, outside ?_, run ?_, outside ?_, run ?_, outside ?_⟩ <;>
      simp [runs_eq, timeFlags_eq, late, frameBytes]
  case sceneShown =>
    refine ⟨run ?_, outside ?_, run ?_, outside ?_⟩ <;> simp [runs_eq, showFlags_eq]
  case keepShown =>
    refine ⟨run ?_, outside ?_, run ?_, outside ?_, run ?_, outside ?_, run ?_⟩ <;>
      simp [runs_eq, timeFlags_eq, late, frameBytes]
  case skipped reason slip =>
    refine ⟨join (n := 1) (k := 1) (x := [6]) (run ?_) (run ?_), outside ?_, run ?_, outside ?_⟩ <;>
      cases reason <;> simp [runs_eq, SkipReason.code]
  case refused reason =>
    refine ⟨join (n := 1) (k := 1) (x := [7]) (run ?_) (run ?_), outside ?_⟩ <;>
      cases reason <;> simp [runs_eq, RefuseReason.code]
  case released | withdrawn => refine ⟨run ?_, outside ?_⟩ <;> simp [runs_eq]

/-- Settles O38. -/
theorem outcomeWriteIsPerformedWhole : Obligations.OutcomeWriteIsPerformedWhole := by
  refine ⟨reportRequest_iff, reportRequest_none_iff, fun s t i record ran before after => ?released,
    fun s i w calm port request item wf => ?whole⟩
  case released =>
    cases ran
    have changed : (grantDecision s).report.queue[i]? ≠ s.report.queue[i]? := by
      rw [after, before]
      simp
    obtain ⟨request, tiles⟩ := grantDecision_queue changed
    have free : ¬ FadesFrom record s := reportRequest_released request before rfl
    refine ⟨free, ?_⟩
    rwa [FadesFrom, tiles]
  case whole =>
    have report : grantDecision s = grantReport i s := grantDecision_report calm port request
    refine ⟨grantReport i s, (exec_grantDecision s).trans (congrArg _ report), onlyIn_grantReport i s, ?_⟩
    rw [grantReport_eq item]
    refine ⟨rfl, fun a outside => w.perform_outside wf (by omega), ?_, w.perform_fields wf, w.perform_passCount wf⟩
    refine w.perform_kept wf fun r hr => ?_
    have := w.kind.runs_inside _ r hr
    omega

/-! ## Fault records (R188) -/

theorem FaultRecord.runs_apart (f : FaultRecord) (superseded : Bool) : (f.runs superseded).Pairwise RunsApart := by
  simp [FaultRecord.runs, RunsApart]

theorem FaultKind.code_byte (k : FaultKind) :
    (BitVec.ofNat 8 k.code : Byte) = match k with
      | .address => 1 | .marker => 2 | .count => 3 | .length => 4 | .link => 5 | .stale => 6 | .badKind => 17
      | .badTime => 18 | .badTile => 19 | .dupTile => 20 | .badPlate => 21 := by
  cases k <;> rfl

theorem flag_byte (b : Bool) : (BitVec.ofNat 8 b.toNat : Byte) = if b then 1 else 0 := by cases b <;> rfl

/-- A fault record performed on the page at `page` (R184, R188). -/
theorem FaultRecord.performed {m : List Host.Cell} (wf : Memory.wf m = true) (page : Nat) (f : FaultRecord)
    (superseded : Bool) :
    let m' := writeRuns m page (f.runs superseded)
    (∀ a, a < page + 128 ∨ page + 152 ≤ a ∨ a = page + 130 ∨ a = page + 131 → Memory.read m' a = Memory.read m a) ∧
    Memory.readBytes m' (page + 128) 2 = [(match f.kind with
      | .address => 1 | .marker => 2 | .count => 3 | .length => 4 | .link => 5 | .stale => 6 | .badKind => 17
      | .badTime => 18 | .badTile => 19 | .dupTile => 20 | .badPlate => 21), if superseded then 1 else 0] ∧
    Memory.readBytes m' (page + 132) 20 =
      leBytes 4 f.address.toNat ++ leBytes 6 f.frame ++ [0, 0] ++ leBytes 8 f.detail.toNat := by
  have run {o n : Nat} {bs : List Byte} (h : (o, bs) ∈ f.runs superseded) (len : bs.length = n := by simp) :
      Memory.readBytes (writeRuns m page (f.runs superseded)) (page + o) n = bs :=
    len ▸ Memory.readBytes_writeRuns wf page (f.runs_apart superseded) h
  refine ⟨fun a outside => Memory.read_writeRuns_outside page a _ wf ?_, run ?_, run ?_⟩
  · simp only [FaultRecord.runs, List.mem_cons, List.not_mem_nil, or_false, forall_eq_or_imp, forall_eq]
    simp only [List.length_cons, List.length_nil, List.length_append, length_leBytes, length_frameBytes]
    omega
  · rw [← FaultKind.code_byte, ← flag_byte]
    simp [FaultRecord.runs]
  · simp [FaultRecord.runs, frameBytes]

/-! ## The blocks of a refresh (R182, R183) -/

theorem TileReport.length_bytes (r : TileReport) : r.bytes.length = 32 := by
  unfold TileReport.bytes
  cases r.descriptor <;> cases r.dwellEnd <;> simp

theorem length_flatten_bytes (l : List TileReport) : ((l.map TileReport.bytes).flatten).length = 32 * l.length := by
  induction l with
  | nil => rfl
  | cons r rest ih =>
    rw [List.map_cons, List.flatten_cons, List.length_append, ih, TileReport.length_bytes, List.length_cons]
    omega

/-- The bytes of the `j`-th of a run of tile records. -/
theorem flatten_bytes_at {l : List TileReport} {j : Nat} {r : TileReport} (h : l[j]? = some r) :
    (((l.map TileReport.bytes).flatten).drop (32 * j)).take 32 = r.bytes := by
  induction l generalizing j with
  | nil => cases h
  | cons x rest ih =>
    rw [List.map_cons, List.flatten_cons]
    cases j with
    | zero =>
      cases h
      exact List.take_left' (TileReport.length_bytes r)
    | succ j =>
      have : 32 * (j + 1) = x.bytes.length + 32 * j := by rw [TileReport.length_bytes]; omega
      rw [this, List.drop_length_add_append]
      exact ih h

theorem PageSnapshot.length_head (g : PageSnapshot) : g.head.length = 128 := by simp [PageSnapshot.head]

section
variable {g : PageSnapshot} {n : Nat}

theorem PageSnapshot.burst_head : g.burst 0 = g.head := rfl

theorem PageSnapshot.burst_tiles (h : 1 ≤ n) (h' : n ≤ 4) :
    g.burst n = (((g.tiles.drop (4 * (n - 1))).take 4).map TileReport.bytes).flatten := by
  simp only [PageSnapshot.burst, if_neg (show n ≠ 0 by omega), if_pos h']

theorem PageSnapshot.burst_last : g.burst 5 = leBytes 6 g.frame ++ List.replicate 122 0 := by
  simp [PageSnapshot.burst, frameBytes]

theorem PageSnapshot.length_burst (few : n < 6) (tiles : g.tiles.length = 16) : (g.burst n).length = 128 := by
  obtain rfl | first | rfl : n = 0 ∨ (1 ≤ n ∧ n ≤ 4) ∨ n = 5 := by omega
  · exact PageSnapshot.length_head g
  · rw [PageSnapshot.burst_tiles first.1 first.2, length_flatten_bytes, List.length_take, List.length_drop, tiles]
    omega
  · rw [PageSnapshot.burst_last]
    simp

theorem PageSnapshot.head_eq :
    g.head = leBytes 6 g.frame ++ [0, 0, BitVec.ofNat 8 g.wall.code, BitVec.ofNat 8 g.follower.code, 0, 0] ++
      leBytes 4 g.follow ++ leBytes 6 g.frame ++ ([0, 0] : List Byte) ++
      [g.clock.hours, g.clock.minutes, g.clock.seconds, g.clock.frame].map (BitVec.ofNat 8) ++
      leBytes 2 g.average ++ [BitVec.ofNat 8 g.level.code, BitVec.ofNat 8 g.sensor.code] ++
      leBytes 4 g.handback.toNat ++ leBytes 4 g.tag.toNat ++
      ([(match g.result with
        | none => 0 | some (.trim, _) => 1 | some (.profile, _) => 2 | some (.invalidate, _) => 3),
       (match g.result with | none => 0 | some (_, .done) => 1 | some (_, .failed) => 2 | some (_, .noImage) => 3),
       0, 0] : List Byte) ++ leBytes 4 g.skipped.toNat ++ List.replicate 80 0 := by
  have result : ([BitVec.ofNat 8 (storeResultCodes g.result).1, BitVec.ofNat 8 (storeResultCodes g.result).2] : List Byte) =
      [(match g.result with
        | none => 0 | some (.trim, _) => 1 | some (.profile, _) => 2 | some (.invalidate, _) => 3),
       (match g.result with | none => 0 | some (_, .done) => 1 | some (_, .failed) => 2 | some (_, .noImage) => 3)] := by
    match g.result with
    | none => rfl
    | some (kind, outcome) => cases kind <;> cases outcome <;> rfl
  obtain ⟨kind, outcome⟩ := List.cons_eq_cons.1 result
  simp only [PageSnapshot.head, kind, (List.cons_eq_cons.1 outcome).1, frameBytes, List.append_assoc, List.map_cons,
    List.map_nil, List.cons_append, List.nil_append]

end

theorem TileReport.bytes_eq (r : TileReport) :
    r.bytes = [BitVec.ofNat 8 r.link.code, BitVec.ofNat 8 r.set.code] ++
      (match r.descriptor with
        | none => List.replicate 8 0
        | some d => [BitVec.ofNat 8 d.latency, 0] ++ leBytes 2 d.width ++ leBytes 2 d.height ++
            leBytes 2 d.model.toNat) ++
      leBytes 2 r.missCount ++ leBytes 2 r.underruns ++ ([0, 0] : List Byte) ++
      leBytes 4 (match r.cue with | none => 0 | some record => record) ++ ([0, 0, 0, 0] : List Byte) ++
      (match r.dwellEnd with
        | none => List.replicate 8 (0xFF : Byte)
        | some d => leBytes 6 d ++ [0, 0]) := by
  cases cue : r.cue <;> simp only [TileReport.bytes, cue, frameBytes, Option.getD_none, Option.getD_some] <;> rfl

/-- A burst of a refresh performed on the page at `page`: one whole block, with the fields of section 12.4. -/
theorem PageSnapshot.performed {m : List Host.Cell} (wf : Memory.wf m = true) (page : Nat) {g : PageSnapshot} {n : Nat}
    (few : n < 6) (tiles : g.tiles.length = 16) :
    let m' := Memory.writeBytes m (page + 128 * refreshBlock n) (g.burst n)
    let base := page + 128 * (if n = 0 then 0 else n + 1)
    (∀ x, x < base ∨ base + 128 ≤ x → Memory.read m' x = Memory.read m x) ∧
    (n = 0 → Memory.readBytes m' base 128 = g.head) ∧
    (∀ j r, 1 ≤ n → n ≤ 4 → j < 4 → g.tiles[4 * (n - 1) + j]? = some r →
      Memory.readBytes m' (base + 32 * j) 32 = r.bytes) ∧
    (n = 5 → Memory.readBytes m' base 128 = leBytes 6 g.frame ++ List.replicate 122 (0 : Byte)) := by
  intro m' base
  have length := PageSnapshot.length_burst few tiles
  have whole : Memory.readBytes m' base 128 = g.burst n := length ▸ Memory.readBytes_writeBytes wf base (g.burst n)
  refine ⟨fun x outside => ?_, ?_, fun j r first last small at_j => ?_, ?_⟩
  · exact (Memory.read_writeBytes base x (g.burst n) wf).trans (if_neg (by rw [length]; omega))
  · rintro rfl
    exact whole
  · refine (Memory.readBytes_writeBytes_sub wf base (bs := g.burst n) (k := 32 * j) (n := 32) (by omega)).trans ?_
    rw [PageSnapshot.burst_tiles first last]
    refine flatten_bytes_at ?_
    rw [List.getElem?_take, if_pos small, List.getElem?_drop]
    exact at_j
  · rintro rfl
    rw [whole, PageSnapshot.burst_last]

end Sys2Proof.Machine
end

section
/-! The layers of one frame start (R2): the run of attempts, the links, the scan contexts, the level request and the
engines, and what the frame start as a whole makes of a tile column. -/

set_option Elab.async false

namespace Sys2Proof.Machine

/-! ## The run of attempts (R78 to R80, R88) -/

/-- One move of a frame start's run: a due scene's attempt begins, or a due cue of another kind commits. -/
inductive RunMove (s : State) : State → Prop
  | attempts {v : Eval} {l : List Assignment} (due : s.dueEval = some v) (idle : s.commit.attempt = none)
      (room : s.attemptRoom = true) (body : v.entry.cue.body = .scene l) :
      RunMove s (s.setCommit { s.commit with attempt := some ⟨v.entry.cue.record, platesOf l, []⟩ })
  | commits {v : Eval} (due : s.dueEval = some v) (idle : s.commit.attempt = none) (room : s.attemptRoom = true)
      (other : v.entry.cue.body.isScene = false) (place : dueRoom v.entry.cue.body s = true) :
      RunMove s (commitDue v (s.now + s.horizon) s)

theorem attemptRun_stops {n : Nat} {s : State}
    (h : s.window.wall ≠ .showing ∨ s.commit.attempt.isSome = true ∨ s.dueEval = none ∨ s.attemptRoom = false) :
    attemptRun n s = s := by
  cases n with
  | zero => rfl
  | succ n =>
    rw [attemptRun]
    split
    · rfl
    · next going =>
      obtain ⟨showing, idle⟩ := not_or.1 going
      cases due : s.dueEval with
      | none => rfl
      | some v =>
        have full : s.attemptRoom = false := by
          rcases h with h | h | h | h
          · exact absurd h showing
          · exact absurd h idle
          · exact absurd (due.symm.trans h) (by simp)
          · exact h
        simp [full]

theorem attemptRun_attempts {n : Nat} {s : State} {v : Eval} {l : List Assignment} (wall : s.window.wall = .showing)
    (idle : s.commit.attempt = none) (due : s.dueEval = some v) (room : s.attemptRoom = true)
    (body : v.entry.cue.body = .scene l) :
    attemptRun (n + 1) s =
      s.setCommit { s.commit with attempt := some ⟨v.entry.cue.record, platesOf l, []⟩ } := by
  simp [attemptRun, wall, idle, due, room, body]

theorem attemptRun_other {n : Nat} {s : State} {v : Eval} (wall : s.window.wall = .showing)
    (idle : s.commit.attempt = none) (due : s.dueEval = some v) (room : s.attemptRoom = true)
    (other : v.entry.cue.body.isScene = false) :
    attemptRun (n + 1) s =
      if dueRoom v.entry.cue.body s then attemptRun n (commitDue v (s.now + s.horizon) s) else s := by
  cases body : v.entry.cue.body with
  | scene l => simp [body, CueBody.isScene] at other
  | trim l => simp [attemptRun, wall, idle, due, room, body]
  | clock c => simp [attemptRun, wall, idle, due, room, body]
  | mark tag => simp [attemptRun, wall, idle, due, room, body]

/-- What every move of the run does, the run does. -/
theorem attemptRun_induction {R : State → State → Prop} (refl : ∀ s, R s s)
    (trans : ∀ {s t u}, R s t → R t u → R s u) (move : ∀ {s t}, RunMove s t → R s t) (n : Nat) (s : State) :
    R s (attemptRun n s) := by
  induction n generalizing s with
  | zero => exact refl s
  | succ n ih =>
    by_cases wall : s.window.wall = .showing
    case neg => rw [attemptRun_stops (.inl wall)]; exact refl s
    cases idle : s.commit.attempt with
    | some a => rw [attemptRun_stops (.inr (.inl (by rw [idle]; rfl)))]; exact refl s
    | none =>
    cases due : s.dueEval with
    | none => rw [attemptRun_stops (.inr (.inr (.inl due)))]; exact refl s
    | some v =>
    cases room : s.attemptRoom with
    | false => rw [attemptRun_stops (.inr (.inr (.inr room)))]; exact refl s
    | true =>
    cases scene : v.entry.cue.body.isScene with
    | true =>
      obtain ⟨l, body⟩ : ∃ l, v.entry.cue.body = .scene l := by
        cases body : v.entry.cue.body <;> simp [body, CueBody.isScene] at scene ⊢
      rw [attemptRun_attempts wall idle due room body]
      exact move (.attempts due idle room body)
    | false =>
      rw [attemptRun_other wall idle due room scene]
      split
      · next place => exact trans (move (.commits due idle room scene place)) (ih _)
      · exact refl s

/-! ## A cue of another kind commits (R88) -/

theorem foldl_placeSwitch_tile {α : Type} (on : α → Nat) (body : α → SwitchBody) (visible : Nat) (l : List α) {k : Nat}
    {s : State} (there : k < s.tiles.length) :
    (l.foldl (fun u x => placeSwitch (on x) visible (body x) u) s).tile k =
      (l.filter (fun x => on x == k)).foldl (fun t x => t.placed visible (body x) s.prof) (s.tile k) := by
  induction l generalizing s with
  | nil => rfl
  | cons x rest ih =>
    rw [List.foldl_cons, ih (by rwa [(otherTilesKept_placeSwitch _ _ _ _).1]),
      (onlyIn_placeSwitch (on x) visible (body x) s).prof]
    by_cases here : on x = k
    · rw [List.filter_cons_of_pos (by simpa using here), List.foldl_cons, ← here,
        show (placeSwitch (on x) visible (body x) s).tile (on x) = (s.tile (on x)).placed visible (body x) s.prof from
          State.tile_updTile_same _ (here ▸ there)]
    · rw [List.filter_cons_of_neg (by simpa using here),
        (otherTilesKept_placeSwitch (on x) visible (body x) s).2 k (Ne.symm here)]

theorem foldl_placeSwitch_length {α : Type} (on : α → Nat) (body : α → SwitchBody) (visible : Nat) (l : List α)
    (s : State) : (l.foldl (fun u x => placeSwitch (on x) visible (body x) u) s).tiles.length = s.tiles.length := by
  induction l generalizing s with
  | nil => rfl
  | cons x rest ih => rw [List.foldl_cons, ih, (otherTilesKept_placeSwitch _ _ _ _).1]

theorem sublist_insertSwitch (sw : Switch) (l : List Switch) : l.Sublist (insertSwitch sw l) := by
  induction l with
  | nil => exact List.nil_sublist _
  | cons x rest ih =>
    rw [insertSwitch]
    split
    · exact ih.cons_cons x
    · exact List.sublist_cons_self sw _

/-- Tile `t'` is tile `t` with switches that are not of scenes added to its pending list. -/
structure Tile.Gains (t t' : Tile) : Prop where
  rest : t' = { t with switches := t'.switches }
  kept : t.switches.Sublist t'.switches
  added : ∀ sw ∈ t'.switches, sw ∈ t.switches ∨ sw.isScene = false

theorem Tile.Gains.refl (t : Tile) : t.Gains t := ⟨rfl, .refl _, fun _ h => .inl h⟩

theorem Tile.Gains.trans {a b c : Tile} (h : a.Gains b) (g : b.Gains c) : a.Gains c where
  rest := by rw [g.rest, h.rest]
  kept := h.kept.trans g.kept
  added sw x := (g.added sw x).elim (h.added sw) .inr

theorem Tile.gains_placed (visible : Nat) {body : SwitchBody} (other : ∀ n, Switch.isScene ⟨n, body⟩ = false)
    (p : Profile) (t : Tile) : t.Gains (t.placed visible body p) where
  rest := rfl
  kept := sublist_insertSwitch _ _
  added sw h := by
    rcases (mem_insertSwitch _ _ _).1 h with rfl | h
    · exact .inr (other _)
    · exact .inl h

theorem Tile.gains_foldl_placed {α : Type} {body : α → SwitchBody} (other : ∀ x n, Switch.isScene ⟨n, body x⟩ = false)
    (visible : Nat) (p : Profile) (l : List α) (t : Tile) :
    t.Gains (l.foldl (fun t x => t.placed visible (body x) p) t) := by
  induction l generalizing t with
  | nil => exact .refl t
  | cons x rest ih => exact (t.gains_placed visible (other x) p).trans (ih _)

/-- The due-list entry of a TRIM, CLOCK or MARK cue that commits with a visible frame (R88). -/
def Eval.dueEntry (v : Eval) (visible : Nat) (pass : BitVec 32) : DueEntry :=
  { record := v.entry.cue.record, pass := pass, body := v.entry.cue.body, keep := v.entry.cue.keep, visible := visible,
    slip := v.slip, late := v.entry.late, persist := v.entry.cue.persist }

/-- The state with the due-list entry of a committing cue joined and the commit counted (R88). -/
def joinDue (v : Eval) (visible : Nat) (s : State) : State :=
  s.setCommit { s.commit with
    due := s.commit.due ++ [v.dueEntry visible (s.commit.commitCount + 1)], commitCount := s.commit.commitCount + 1 }

theorem commitDue_eq (v : Eval) (visible : Nat) (s : State) :
    commitDue v visible s =
      leaveCommitted v.entry.cue.record visible (placeDue v.entry.cue visible (joinDue v visible s)) := rfl

theorem commitDue_commit (v : Eval) (visible : Nat) (s : State) :
    (commitDue v visible s).commit = { s.commit with
      due := s.commit.due ++ [v.dueEntry visible (s.commit.commitCount + 1)]
      commitCount := s.commit.commitCount + 1 } := by
  rw [commitDue_eq, (onlyIn_leaveCommitted _ _ _).commit, (onlyIn_placeDue _ _ _).commit]
  rfl

theorem placeDue_length (c : Cue) (visible : Nat) (s : State) :
    (placeDue c visible s).tiles.length = s.tiles.length := by
  unfold placeDue
  split
  · exact foldl_placeSwitch_length _ _ _ _ _
  · rfl
  · rfl
  · rfl

theorem placeDue_tile_gains (c : Cue) (visible : Nat) (s : State) (k : Nat) :
    (s.tile k).Gains ((placeDue c visible s).tile k) := by
  by_cases there : k < s.tiles.length
  · unfold placeDue
    split
    · next entries _ =>
      rw [foldl_placeSwitch_tile (fun x : TrimEntry => x.tile) (fun x => .trim x.street x.dusk) visible entries there]
      exact Tile.gains_foldl_placed (fun _ _ => rfl) _ _ _ _
    · exact .refl _
    · exact .refl _
    · exact .refl _
  · rw [State.tile_of_length_le (Nat.le_of_not_lt there),
      State.tile_of_length_le (by rw [placeDue_length]; exact Nat.le_of_not_lt there)]
    exact .refl _

/-- A follower that is told of entries leaving the queue changes its state alone, out of FULL or WAIT_REUSE (R41). -/
def Follower.Told (f f' : Follower) : Prop :=
  f' = { f with state := f'.state } ∧ (f.state ≠ .full → f.state ≠ .waitReuse → f' = f) ∧
    (f' ≠ f → f'.state = .fetching)

theorem Follower.Told.refl (f : Follower) : f.Told f := ⟨rfl, fun _ _ => rfl, fun h => absurd rfl h⟩

theorem Follower.Told.trans {a b c : Follower} (h : a.Told b) (g : b.Told c) : a.Told c := by
  refine ⟨by rw [g.1, h.1], fun full reuse => ?_, fun ne => ?_⟩
  · have same := h.2.1 full reuse
    rw [g.2.1 (same ▸ full) (same ▸ reuse), same]
  · by_cases later : c = b
    · rw [later]
      exact h.2.2 (later ▸ ne)
    · exact g.2.2 later

theorem followerOnLeave_told (s : State) : s.follower.Told (followerOnLeave s).follower := by
  unfold followerOnLeave
  split
  · next full => exact ⟨rfl, fun h => absurd full h, fun _ => rfl⟩
  · next reuse =>
    split
    · exact .refl _
    · exact ⟨rfl, fun _ h => absurd reuse h, fun _ => rfl⟩
  · exact .refl _
  · exact .refl _
  · exact .refl _
  · exact .refl _

theorem leaveQueue_told (record : Nat) (s : State) : s.follower.Told (leaveQueue record s).follower :=
  followerOnLeave_told _

theorem commitDue_told (v : Eval) (visible : Nat) (s : State) :
    s.follower.Told (commitDue v visible s).follower := by
  have before : (placeDue v.entry.cue visible (joinDue v visible s)).follower = s.follower :=
    (onlyIn_placeDue _ _ _).follower
  have told := leaveQueue_told v.entry.cue.record
    ((placeDue v.entry.cue visible (joinDue v visible s)).setScheduler
      { (placeDue v.entry.cue visible (joinDue v visible s)).scheduler with lastFrame := some visible })
  rw [State.setScheduler_follower, before] at told
  exact told

/-- What a frame start's run of attempts keeps: tile columns but for added switches, the follower but for its state, and
of the Commit Unit all but the attempt, the commit count and new due entries of the horizon's frame. -/
structure RunKeeps (s t : State) : Prop where
  length : t.tiles.length = s.tiles.length
  tile : ∀ k, (s.tile k).Gains (t.tile k)
  told : s.follower.Told t.follower
  beat : t.now = s.now ∧ t.horizon = s.horizon
  commit : t.commit = { s.commit with due := t.commit.due, commitCount := t.commit.commitCount,
                                      attempt := t.commit.attempt }
  due : s.commit.due ⊆ t.commit.due ∧ ∀ d ∈ t.commit.due, d ∈ s.commit.due ∨ d.visible = s.now + s.horizon

theorem RunKeeps.refl (s : State) : RunKeeps s s where
  length := rfl
  tile _ := .refl _
  told := .refl _
  beat := ⟨rfl, rfl⟩
  commit := rfl
  due := ⟨fun _ h => h, fun _ h => .inl h⟩

theorem RunKeeps.trans {s t u : State} (h : RunKeeps s t) (g : RunKeeps t u) : RunKeeps s u where
  length := g.length.trans h.length
  tile k := (h.tile k).trans (g.tile k)
  told := h.told.trans g.told
  beat := ⟨g.beat.1.trans h.beat.1, g.beat.2.trans h.beat.2⟩
  commit := by rw [g.commit, h.commit]
  due := by
    refine ⟨fun _ x => g.due.1 (h.due.1 x), fun d x => ?_⟩
    rcases g.due.2 d x with x | x
    · exact h.due.2 d x
    · exact .inr (by rw [x, h.beat.1, h.beat.2])

theorem runKeeps_commitDue (v : Eval) (s : State) : RunKeeps s (commitDue v (s.now + s.horizon) s) where
  length := by
    rw [commitDue_eq, (onlyIn_leaveCommitted _ _ _).tiles, placeDue_length]
    rfl
  tile k := by
    rw [commitDue_eq, (onlyIn_leaveCommitted _ _ _).tile k]
    exact placeDue_tile_gains v.entry.cue (s.now + s.horizon) (joinDue v (s.now + s.horizon) s) k
  told := commitDue_told v _ s
  beat := by
    obtain ⟨sets, ftg⟩ := commitDue_ftg v (s.now + s.horizon) s
    exact ⟨(congrArg Ftg.frame ftg).trans rfl, (onlyIn_commitDue v _ s).horizon⟩
  commit := by rw [commitDue_commit]
  due := by
    rw [commitDue_commit]
    refine ⟨List.subset_append_left _ _, fun d h => ?_⟩
    rcases List.mem_append.1 h with h | h
    · exact .inl h
    · exact .inr (by rw [List.mem_singleton.1 h]; rfl)

theorem runKeeps_attempt (a : Option Attempt) (s : State) : RunKeeps s (s.setCommit { s.commit with attempt := a }) where
  length := rfl
  tile _ := .refl _
  told := .refl _
  beat := ⟨rfl, rfl⟩
  commit := rfl
  due := ⟨fun _ h => h, fun _ h => .inl h⟩

theorem runKeeps_move {s t : State} (h : RunMove s t) : RunKeeps s t := by
  cases h with
  | attempts => exact runKeeps_attempt _ s
  | commits => exact runKeeps_commitDue _ s

theorem runKeeps_attemptRun (n : Nat) (s : State) : RunKeeps s (attemptRun n s) :=
  attemptRun_induction .refl .trans runKeeps_move n s

end Sys2Proof.Machine
end

section
/-! The stages of a frame start before its refresh (R2; log entry 8): what they keep of the Commit Unit, the Report Writer
and the Register Window, and what they make of a tile column. -/

set_option Elab.async false

namespace Sys2Proof.Machine

/-! ## What the stages keep up to the completion of a STOP -/

/-- `t` has `s`'s level request, stop frame and commit count, its refresh and handback counts, and its wall state, command
records and adoption. -/
structure FrameKeeps (s t : State) : Prop where
  request : t.commit.levelRequest = s.commit.levelRequest
  stopFrame : t.commit.stopFrame = s.commit.stopFrame
  counted : t.commit.commitCount = s.commit.commitCount
  skipped : t.report.skipped = s.report.skipped
  handback : t.report.handback = s.report.handback
  wall : t.window.wall = s.window.wall
  main : t.window.main = s.window.main
  adoption : t.window.adoption = s.window.adoption

theorem FrameKeeps.refl (s : State) : FrameKeeps s s := ⟨rfl, rfl, rfl, rfl, rfl, rfl, rfl, rfl⟩

theorem FrameKeeps.trans {s t u : State} (h : FrameKeeps s t) (g : FrameKeeps t u) : FrameKeeps s u :=
  ⟨g.request.trans h.request, g.stopFrame.trans h.stopFrame, g.counted.trans h.counted, g.skipped.trans h.skipped,
    g.handback.trans h.handback, g.wall.trans h.wall, g.main.trans h.main, g.adoption.trans h.adoption⟩

theorem OnlyIn.frameKeeps {ps : List Part} {s t : State} (h : OnlyIn ps s t) (hc : Part.commit ∉ ps := by decide)
    (hr : Part.report ∉ ps := by decide) (hw : Part.window ∉ ps := by decide) : FrameKeeps s t := by
  have commit := h.commit hc
  have report := h.report hr
  have window := h.window hw
  exact ⟨by rw [commit], by rw [commit], by rw [commit], by rw [report], by rw [report], by rw [window], by rw [window],
    by rw [window]⟩

theorem frameKeeps_foldl {α : Type} {f : State → α → State} (h : ∀ s x, FrameKeeps s (f s x)) (l : List α) (s : State) :
    FrameKeeps s (l.foldl f s) := by
  induction l generalizing s with
  | nil => exact .refl s
  | cons x rest ih => exact (h s x).trans (ih _)

theorem frameKeeps_raise (c : Cause) (s : State) : FrameKeeps s (raise c s) :=
  ⟨rfl, rfl, rfl, rfl, rfl, raise_wall c s, raise_main c s, raise_adoption c s⟩

theorem frameKeeps_raiseIf (p : Prop) [Decidable p] (c : Cause) (s : State) :
    FrameKeeps s (if p then raise c s else s) := by
  split
  · exact frameKeeps_raise c s
  · exact .refl s

theorem frameKeeps_stepLinkUnlessDone (k : Nat) (s : State) : FrameKeeps s (stepLinkUnlessDone k s) := by
  unfold stepLinkUnlessDone
  split
  · exact .refl s
  · split
    · exact (onlyIn_updTile k _ s).frameKeeps
    · exact (onlyIn_setTile k _ s).frameKeeps.trans (frameKeeps_raiseIf _ .tile _)

theorem frameKeeps_linksAtFrameStart (s : State) : FrameKeeps s (linksAtFrameStart s) :=
  frameKeeps_foldl (fun s k => frameKeeps_stepLinkUnlessDone k s) _ s

theorem frameKeeps_enqueue (item : QueueItem) (s : State) : FrameKeeps s (enqueue item s) :=
  ⟨rfl, rfl, rfl, rfl, rfl, rfl, rfl, rfl⟩

theorem frameKeeps_setHandoff (l : List OutcomeWrite) (s : State) :
    FrameKeeps s (s.setCommit { s.commit with handoff := l }) :=
  ⟨rfl, rfl, rfl, rfl, rfl, rfl, rfl, rfl⟩

theorem frameKeeps_setShowing (l : List ShowEntry) (s : State) :
    FrameKeeps s (s.setCommit { s.commit with showing := l }) :=
  ⟨rfl, rfl, rfl, rfl, rfl, rfl, rfl, rfl⟩

theorem frameKeeps_handOn (record : Nat) (kind : OutcomeKind) (s : State) : FrameKeeps s (handOn record kind s) := by
  rcases handOn_cases record kind s with h | h <;> rw [h]
  · exact frameKeeps_enqueue _ s
  · exact frameKeeps_setHandoff _ s

theorem frameKeeps_endAttempt (s : State) : FrameKeeps s (endAttempt s) := ⟨rfl, rfl, rfl, rfl, rfl, rfl, rfl, rfl⟩

theorem frameKeeps_receiveDeparting (s : State) : FrameKeeps s (receiveDeparting s) := by
  rcases receiveDeparting_cases s with h | ⟨r, d, _, _, h⟩ <;> rw [h]
  · exact .refl s
  · exact (frameKeeps_enqueue _ s).trans (onlyIn_leaveQueue r _).frameKeeps

theorem frameKeeps_drainDeparting (n : Nat) (s : State) : FrameKeeps s (drainDeparting n s) := by
  induction n generalizing s with
  | zero => exact .refl s
  | succ n ih => exact (frameKeeps_receiveDeparting s).trans (ih _)

theorem frameKeeps_depart (pick : Entry → Bool) (why : Departure) (s : State) : FrameKeeps s (depart pick why s) :=
  (onlyIn_mapQueue _ s).frameKeeps.trans (frameKeeps_drainDeparting _ _)

theorem frameKeeps_receiveHoldFault (s : State) : FrameKeeps s (receiveHoldFault s) := by
  unfold receiveHoldFault
  split
  · exact .refl s
  · split
    · exact ⟨rfl, rfl, rfl, rfl, rfl, rfl, rfl, rfl⟩
    · exact .refl s

theorem frameKeeps_receiveHandoff (s : State) : FrameKeeps s (receiveHandoff s) := by
  unfold receiveHandoff
  split
  · exact .refl s
  · split
    · exact (frameKeeps_setHandoff _ s).trans (frameKeeps_enqueue _ _)
    · exact .refl s

theorem frameKeeps_receiveWaiting (s : State) : FrameKeeps s (receiveWaiting s) :=
  ((frameKeeps_drainDeparting _ s).trans (frameKeeps_foldl (fun u _ => frameKeeps_receiveHoldFault u) _ _)).trans
    (frameKeeps_foldl (fun u _ => frameKeeps_receiveHandoff u) _ _)

theorem frameKeeps_beginFrame (s : State) : FrameKeeps s (beginFrame s) :=
  ((frameKeeps_linksAtFrameStart s).trans (onlyIn_setFtg _ _).frameKeeps).trans
    ((frameKeeps_endAttempt _).trans (frameKeeps_receiveWaiting _))

theorem frameKeeps_scheduleAtFrameStart (s : State) : FrameKeeps s (scheduleAtFrameStart s) :=
  (frameKeeps_depart _ _ s).trans (onlyIn_fixTargets _).frameKeeps

theorem frameKeeps_sceneTaken (k : Nat) (id : PassId) (s : State) : FrameKeeps s (sceneTaken k id s) := by
  rw [sceneTaken]
  exact (frameKeeps_setShowing _ s).trans (onlyIn_updTile k _ _).frameKeeps

theorem frameKeeps_takeSwitch (k : Nat) (s : State) (sw : Switch) : FrameKeeps s (takeSwitch k s sw) := by
  unfold takeSwitch
  split
  · exact (onlyIn_updTile k _ s).frameKeeps.trans (frameKeeps_sceneTaken k _ _)
  · exact (onlyIn_updTile k _ s).frameKeeps
  · exact (onlyIn_updTile k _ s).frameKeeps

theorem frameKeeps_takeStop (k : Nat) (s : State) : FrameKeeps s (takeStop k s) := by
  unfold takeStop
  split
  · exact (onlyIn_updTile k _ s).frameKeeps.trans (frameKeeps_setShowing _ _)
  · exact .refl s

theorem frameKeeps_scanTile (k : Nat) (s : State) : FrameKeeps s (scanTile k s) :=
  ((onlyIn_updTile k _ s).frameKeeps.trans (frameKeeps_foldl (frameKeeps_takeSwitch k) _ _)).trans
    (frameKeeps_takeStop k _)

theorem frameKeeps_setResetTaken (b : Bool) (s : State) :
    FrameKeeps s (s.setWindow { s.window with resetTaken := b }) :=
  ⟨rfl, rfl, rfl, rfl, rfl, rfl, rfl, rfl⟩

theorem frameKeeps_scanAtFrameStart (s : State) : FrameKeeps s (scanAtFrameStart s) :=
  (frameKeeps_foldl (fun s k => frameKeeps_scanTile k s) _ s).trans
    (frameKeeps_setResetTaken false (forTiles Config.tileCount scanTile s))

theorem frameKeeps_endJob_trim (outcome : JobOutcome) (s : State) : FrameKeeps s (endJob .trim outcome s) :=
  ⟨rfl, rfl, rfl, rfl, rfl, rfl, rfl, rfl⟩

theorem frameKeeps_offerTrimJob (entries : List TrimEntry) (s : State) : FrameKeeps s (offerTrimJob entries s).1 := by
  unfold offerTrimJob
  split
  · exact .refl s
  · split
    · unfold placeJob
      split
      · exact frameKeeps_endJob_trim _ s
      · exact (onlyIn_setStore s _).frameKeeps
    · exact frameKeeps_endJob_trim _ s

theorem frameKeeps_dueEffect (e : DueEntry) (s : State) : FrameKeeps s (dueEffect e s).1 := by
  unfold dueEffect
  split
  · exact .refl s
  · exact .refl s
  · exact ⟨rfl, rfl, rfl, rfl, rfl, rfl, rfl, rfl⟩
  · split
    · exact frameKeeps_offerTrimJob _ s
    · exact .refl s

theorem frameKeeps_completeReaching (s : State) (x : Reaching) : FrameKeeps s (completeReaching s x) := by
  cases x with
  | scene e => exact (frameKeeps_setShowing _ s).trans (frameKeeps_handOn _ _ _)
  | due e =>
    have left : FrameKeeps s (s.setCommit { s.commit with due := s.commit.due.filter (fun x => x.pass != e.pass) }) :=
      ⟨rfl, rfl, rfl, rfl, rfl, rfl, rfl, rfl⟩
    exact (left.trans (frameKeeps_dueEffect e _)).trans (frameKeeps_handOn _ _ _)

theorem frameKeeps_releaseScenes (s : State) : FrameKeeps s (releaseScenes s) := by
  refine (frameKeeps_setShowing _ s).trans (frameKeeps_foldl (fun u e => ?_) _ _)
  split
  · exact .refl u
  · exact frameKeeps_handOn _ _ u

/-! ## The stages -/

/-- A frame start taken as far as its scan contexts. -/
def frameScanned (s : State) : State := scanAtFrameStart (scheduleAtFrameStart (beginFrame s))

/-- A frame start taken as far as the releases. -/
def frameReleased (s : State) : State :=
  releaseScenes ((frameScanned s).reaching.foldl completeReaching (frameScanned s))

theorem untilRefresh_eq (s : State) :
    untilRefresh s = prepareEngines (retryLevelRequest (completeStop (frameReleased s))) := rfl

theorem onlyIn_frameScanned (s : State) :
    OnlyIn [.tiles, .window, .ftg, .commit, .scheduler, .follower, .report] s (frameScanned s) :=
  ((onlyIn_beginFrame s).trans ((onlyIn_scheduleAtFrameStart _).mono (by decide))).trans
    ((onlyIn_scanAtFrameStart _).mono (by decide))

theorem onlyIn_frameReleased (s : State) :
    OnlyIn [.commit, .store, .report, .window] (frameScanned s) (frameReleased s) :=
  (onlyIn_foldl _ onlyIn_completeReaching _ _).comp (onlyIn_releaseScenes _)

theorem frameKeeps_frameScanned (s : State) : FrameKeeps s (frameScanned s) :=
  ((frameKeeps_beginFrame s).trans (frameKeeps_scheduleAtFrameStart _)).trans (frameKeeps_scanAtFrameStart _)

theorem frameKeeps_frameReleased (s : State) : FrameKeeps s (frameReleased s) :=
  ((frameKeeps_frameScanned s).trans (frameKeeps_foldl frameKeeps_completeReaching _ _)).trans
    (frameKeeps_releaseScenes _)

theorem Ftg.advance_frame (rate : Nat) (f : Ftg) : (f.advance rate).frame = f.frame + 1 := by
  unfold Ftg.advance
  dsimp only
  split <;> rfl

theorem beginFrame_ftg (s : State) : (beginFrame s).ftg = s.ftg.advance s.prof.rate := by
  have links := onlyIn_linksAtFrameStart s
  have rest : (beginFrame s).ftg = (advanceFtg (linksAtFrameStart s)).ftg :=
    (((onlyIn_endAttempt _).mono (by decide)).trans
      (onlyIn_receiveWaiting (endAttempt (advanceFtg (linksAtFrameStart s))))).ftg
  rw [rest, advanceFtg, State.setFtg_ftg, links.ftg, links.prof]

theorem beginFrame_now (s : State) : (beginFrame s).now = s.now + 1 :=
  (congrArg Ftg.frame (beginFrame_ftg s)).trans (Ftg.advance_frame _ _)

theorem frameScanned_now (s : State) : (frameScanned s).now = s.now + 1 :=
  ((onlyIn_scanAtFrameStart _).now.trans (onlyIn_scheduleAtFrameStart _).now).trans (beginFrame_now s)

theorem frameReleased_now (s : State) : (frameReleased s).now = s.now + 1 :=
  (onlyIn_frameReleased s).now.trans (frameScanned_now s)

theorem frameReleased_prof (s : State) : (frameReleased s).prof = s.prof :=
  (onlyIn_frameReleased s).prof.trans (onlyIn_frameScanned s).prof

/-! ## The links (R135 to R143) -/

/-- A tile column after the frame-start action of its controller, frame `n` having just ended; nothing for a tile past the
profile's, and the mark alone where the action was taken ahead (log entry 9). -/
def Tile.linked (p : Profile) (n k : Nat) (t : Tile) : Tile :=
  if p.tiles ≤ k then t
  else if t.link.stepped then { t with link := { t.link with stepped := false } }
  else
    let r := t.link.atFrameStart n p.grace (p.lmax + 1)
    { t with link := r.1.sendHeader (n + 1), engine := if r.1.state.carries then t.engine else t.engine.deactivate }

theorem stepLinkUnlessDone_tile {k : Nat} {s : State} (there : k < s.tiles.length) :
    (stepLinkUnlessDone k s).tile k = (s.tile k).linked s.prof s.now k := by
  unfold stepLinkUnlessDone Tile.linked
  split
  · rfl
  · split
    · exact State.tile_updTile_same _ there
    · exact (stepLink_spec there).2.1

theorem linksAtFrameStart_length (s : State) : (linksAtFrameStart s).tiles.length = s.tiles.length :=
  forTiles_length otherTilesKept_stepLinkUnlessDone _ s

theorem linksAtFrameStart_tile {k : Nat} {s : State} (small : k < 16) (there : k < s.tiles.length) :
    (linksAtFrameStart s).tile k = (s.tile k).linked s.prof s.now k := by
  have before := onlyIn_forTiles k _ onlyIn_stepLinkUnlessDone s
  rw [linksAtFrameStart, forTiles_tile otherTilesKept_stepLinkUnlessDone s (show k < Config.tileCount from small),
    stepLinkUnlessDone_tile (by rwa [forTiles_length otherTilesKept_stepLinkUnlessDone]), before.prof, before.now,
    forTiles_tile_of_le otherTilesKept_stepLinkUnlessDone s le_rfl]

/-- What one step of a fold over the tiles raises stays raised. -/
theorem forTiles_flag {f : Nat → State → State} (rises : ∀ j u, AttentionRises u (f j u)) {n k : Nat} {s : State}
    (reached : k < n) {c : Cause} (raised : (f k (forTiles k f s)).flag c = true) : (forTiles n f s).flag c = true := by
  induction n with
  | zero => exact absurd reached (Nat.not_lt_zero k)
  | succ n ih =>
    rw [forTiles_succ]
    rcases Nat.lt_succ_iff_lt_or_eq.1 reached with below | rfl
    · exact (rises n _).flag (ih below)
    · exact raised

theorem linksAtFrameStart_flag {k : Nat} {s : State} (small : k < 16) (below : k < s.prof.tiles)
    (there : k < s.tiles.length) (due : (s.tile k).link.stepped = false)
    (raises : ((s.tile k).link.atFrameStart s.now s.prof.grace s.horizon).2.raisesTile = true) :
    (linksAtFrameStart s).flag .tile = true := by
  have before := onlyIn_forTiles k _ onlyIn_stepLinkUnlessDone s
  have same := forTiles_tile_of_le otherTilesKept_stepLinkUnlessDone (n := k) s le_rfl
  refine forTiles_flag attentionRises_stepLinkUnlessDone (show k < Config.tileCount from small) ?_
  set u := forTiles k stepLinkUnlessDone s with hu
  have length : k < u.tiles.length := by rwa [hu, forTiles_length otherTilesKept_stepLinkUnlessDone]
  have acts : stepLinkUnlessDone k u = stepLink k u := by
    unfold stepLinkUnlessDone
    rw [if_neg (by rw [before.prof]; exact Nat.not_le.2 below), if_neg (by rw [same, due]; decide)]
  rw [acts]
  exact (stepLink_spec length).2.2.1 (by rw [same, before.now, before.prof, before.horizon]; exact raises)

theorem linksAtFrameStart_resetTaken (s : State) : (linksAtFrameStart s).window.resetTaken = s.window.resetTaken := by
  have turn (u : State) (k : Nat) : (stepLinkUnlessDone k u).window.resetTaken = u.window.resetTaken := by
    unfold stepLinkUnlessDone
    split
    · rfl
    · split
      · rfl
      · rw [stepLink]
        split
        · exact raise_resetTaken _ _
        · rfl
  have fold (l : List Nat) (u : State) :
      (l.foldl (fun u k => stepLinkUnlessDone k u) u).window.resetTaken = u.window.resetTaken := by
    induction l generalizing u with
    | nil => rfl
    | cons k rest ih => rw [List.foldl_cons, ih, turn]
  rw [linksAtFrameStart, forTiles, fold]

theorem beginFrame_tiles (s : State) : (beginFrame s).tiles = (linksAtFrameStart s).tiles := by
  rw [beginFrame, (onlyIn_receiveWaiting _).tiles, (onlyIn_endAttempt _).tiles, advanceFtg, State.setFtg_tiles]

theorem scheduled_tiles (s : State) : (scheduleAtFrameStart (beginFrame s)).tiles = (linksAtFrameStart s).tiles :=
  (onlyIn_scheduleAtFrameStart _).tiles.trans (beginFrame_tiles s)

/-! ## The scan contexts (R90, R97, R101) -/

theorem otherTilesKept_takeSwitch (k : Nat) (s : State) (sw : Switch) : OtherTilesKept k s (takeSwitch k s sw) := by
  unfold takeSwitch
  split
  · exact (otherTilesKept_updTile k s _).trans ((otherTilesKept_setCommit k _ _).trans (otherTilesKept_updTile k _ _))
  · exact otherTilesKept_updTile k s _
  · exact otherTilesKept_updTile k s _

theorem otherTilesKept_takeSwitches (k : Nat) (due : List Switch) (s : State) :
    OtherTilesKept k s (due.foldl (takeSwitch k) s) := by
  induction due generalizing s with
  | nil => exact otherTilesKept_refl k s
  | cons sw rest ih => exact (otherTilesKept_takeSwitch k s sw).trans (ih _)

theorem otherTilesKept_takeStop (k : Nat) (s : State) : OtherTilesKept k s (takeStop k s) := by
  unfold takeStop
  split
  · exact (otherTilesKept_updTile k s _).trans (otherTilesKept_setCommit k _ _)
  · exact otherTilesKept_refl k s

theorem otherTilesKept_scanTile (k : Nat) (s : State) : OtherTilesKept k s (scanTile k s) :=
  ((otherTilesKept_updTile k s _).trans (otherTilesKept_takeSwitches k _ _)).trans (otherTilesKept_takeStop k _)

/-- A pending list `l'` is `l` with scene switches alone dropped, and none when `all`. -/
def Switch.DropsScenes (all : Prop) (l l' : List Switch) : Prop :=
  ∃ keep : Switch → Bool, l' = l.filter keep ∧ (∀ sw, sw.isScene = false → keep sw = true) ∧ (all → ∀ sw, keep sw = true)

theorem Switch.DropsScenes.refl (all : Prop) (l : List Switch) : DropsScenes all l l :=
  ⟨fun _ => true, by simp, fun _ _ => rfl, fun _ _ => rfl⟩

theorem Switch.DropsScenes.trans {all : Prop} {a b c : List Switch} (h : DropsScenes all a b) (g : DropsScenes all b c) :
    DropsScenes all a c := by
  obtain ⟨keep, rfl, other, every⟩ := h
  obtain ⟨keep', rfl, other', every'⟩ := g
  refine ⟨fun sw => keep sw && keep' sw, ?_, fun sw h => ?_, fun h sw => ?_⟩
  · rw [List.filter_filter]
    exact List.filter_congr fun sw _ => Bool.and_comm _ _
  · show (keep sw && keep' sw) = true
    rw [other sw h, other' sw h]; rfl
  · show (keep sw && keep' sw) = true
    rw [every h sw, every' h sw]; rfl

theorem Switch.DropsScenes.mem {all : Prop} {l l' : List Switch} (h : DropsScenes all l l') {sw : Switch} (there : sw ∈ l)
    (stays : sw.isScene = true → all) : sw ∈ l' := by
  obtain ⟨keep, rfl, other, every⟩ := h
  refine List.mem_filter.2 ⟨there, ?_⟩
  cases scene : sw.isScene with
  | false => exact other sw scene
  | true => exact every (stays scene) sw

theorem Switch.DropsScenes.sublist {all : Prop} {l l' : List Switch} (h : DropsScenes all l l') : l'.Sublist l := by
  obtain ⟨keep, rfl, -, -⟩ := h
  exact List.filter_sublist

theorem isSceneOf_eq_false {ids : List PassId} {sw : Switch} (h : sw.isScene = false) : sw.isSceneOf ids = false := by
  obtain ⟨frame, body⟩ := sw
  cases body with
  | scene => simp [Switch.isScene] at h
  | trim => rfl
  | level => rfl

theorem takeSwitch_switches {k : Nat} {s : State} (there : k < s.tiles.length) (sw : Switch) :
    Switch.DropsScenes (sw.isScene = false) (s.tile k).switches ((takeSwitch k s sw).tile k).switches := by
  obtain ⟨frame, body⟩ := sw
  cases body with
  | trim street dusk => simpa [takeSwitch, there] using .refl _ _
  | level set => simpa [takeSwitch, there] using .refl _ _
  | scene plate x0 y0 fill tr cue =>
    simp only [takeSwitch, sceneTaken]
    rw [State.tile_updTile_same _ (by simpa using there)]
    simp only [State.tile_setCommit, State.tile_updTile_same _ there]
    refine ⟨_, rfl, fun sw other => ?_, fun h => absurd h (by simp [Switch.isScene])⟩
    rw [isSceneOf_eq_false other]; rfl

theorem takeSwitches_switches {k : Nat} (due : List Switch) {s : State} (there : k < s.tiles.length) :
    Switch.DropsScenes (∀ sw ∈ due, sw.isScene = false) (s.tile k).switches
      ((due.foldl (takeSwitch k) s).tile k).switches := by
  induction due generalizing s with
  | nil => exact .refl _ _
  | cons sw rest ih =>
    obtain ⟨keep, first, other, every⟩ := takeSwitch_switches there sw
    have later := ih (s := takeSwitch k s sw) (by rwa [(otherTilesKept_takeSwitch k s sw).1])
    obtain ⟨keep', second, other', every'⟩ := later
    refine Switch.DropsScenes.trans
      ⟨keep, first, other, fun h => every (h sw List.mem_cons_self)⟩
      ⟨keep', second, other', fun h => every' fun x hx => h x (List.mem_cons_of_mem _ hx)⟩

/-- What the scan context's turn leaves of a tile's pending list: the switches of the frame are gone, and of the others
only scene switches may go, none unless a scene switch or the stop switch is taken; a stop switch leaves no scene
switch. -/
theorem scanTile_switches {k : Nat} {s : State} (there : k < s.tiles.length) :
    Switch.DropsScenes
      ((s.tile k).stopAt ≠ some s.now ∧ ∀ sw ∈ (s.tile k).switches, sw.frame = s.now → sw.isScene = false)
      ((s.tile k).switches.filter (fun sw => sw.frame != s.now)) ((scanTile k s).tile k).switches ∧
    ((s.tile k).stopAt = some s.now → ∀ sw ∈ ((scanTile k s).tile k).switches, sw.isScene = false) := by
  let s' := s.updTile k (fun t =>
    { t with scan := if s.window.resetTaken then t.scan.clear else t.scan.advanceFade,
             switches := t.switches.filter (fun sw => sw.frame != s.now) })
  let due := (s.tile k).switches.filter (fun sw => sw.frame == s.now)
  have there' : k < s'.tiles.length := by simpa [s'] using there
  have cleared : s'.tile k = { s.tile k with
      scan := if s.window.resetTaken then (s.tile k).scan.clear else (s.tile k).scan.advanceFade
      switches := (s.tile k).switches.filter (fun sw => sw.frame != s.now) } := State.tile_updTile_same _ there
  obtain ⟨kept, -, stopAt, -, -, -, ftg⟩ := takeSwitches_spec due there'
  obtain ⟨keep, first, other, every⟩ := takeSwitches_switches due there'
  have now : (due.foldl (takeSwitch k) s').now = s.now := by simp only [State.now, ftg]; rfl
  have length : k < (due.foldl (takeSwitch k) s').tiles.length := by rw [kept.1]; exact there'
  rw [cleared] at first stopAt
  have taken : Switch.DropsScenes
      ((s.tile k).stopAt ≠ some s.now ∧ ∀ sw ∈ (s.tile k).switches, sw.frame = s.now → sw.isScene = false)
      ((s.tile k).switches.filter (fun sw => sw.frame != s.now))
      ((due.foldl (takeSwitch k) s').tile k).switches :=
    ⟨keep, first, other, fun h => every fun sw hsw =>
      h.2 sw (List.mem_filter.1 hsw).1 (by simpa using (List.mem_filter.1 hsw).2)⟩
  have e : scanTile k s = takeStop k (due.foldl (takeSwitch k) s') := rfl
  rw [e]
  unfold takeStop
  rw [stopAt, now]
  dsimp only
  split
  · next stops =>
    rw [State.tile_setCommit, State.tile_updTile_same _ length]
    refine ⟨taken.trans ⟨_, rfl, fun sw other => by rw [other]; rfl, fun h => absurd stops h.1⟩, fun _ sw h => ?_⟩
    simpa using (List.mem_filter.1 h).2
  · next runs => exact ⟨taken, fun h => absurd h runs⟩

theorem scanAtFrameStart_length (s : State) : (scanAtFrameStart s).tiles.length = s.tiles.length := by
  rw [scanAtFrameStart, State.setWindow_tiles, forTiles_length otherTilesKept_scanTile]

/-- Every tile's scan context takes its turn as it would alone. -/
theorem scanAtFrameStart_tile {k : Nat} {s : State} (small : k < 16) :
    ∃ u, (scanAtFrameStart s).tile k = (scanTile k u).tile k ∧ u.tile k = s.tile k ∧ u.tiles.length = s.tiles.length ∧
      u.now = s.now ∧ u.prof = s.prof ∧ u.window = s.window := by
  have before := onlyIn_forTiles k _ onlyIn_scanTile s
  rw [scanAtFrameStart, State.setWindow_tile]
  exact ⟨forTiles k scanTile s, forTiles_tile otherTilesKept_scanTile s (show k < Config.tileCount from small),
    forTiles_tile_of_le otherTilesKept_scanTile s le_rfl, forTiles_length otherTilesKept_scanTile k s, before.now,
    before.prof, before.window⟩

end Sys2Proof.Machine
end

section
/-! A frame start as a whole (R2): what it makes of a tile column, and what it keeps after the refresh is taken. -/

set_option Elab.async false

namespace Sys2Proof.Machine

/-! ## A tile's column up to the refresh -/

/-- The scan context of tile k after its turn at the frame start of `s`, but for its stop switch (R101 to R107, R116). -/
def scanTaken (k : Nat) (s : State) : Scan :=
  ((s.tile k).switches.filter (fun sw => sw.frame == s.now + 1)).foldl (scanTook (s.prof.size k))
    (scanBegun s.window.resetTaken (s.tile k).scan)

theorem Tile.linked_rest (p : Profile) (n k : Nat) (t : Tile) :
    (t.linked p n k).scan = t.scan ∧ (t.linked p n k).switches = t.switches ∧ (t.linked p n k).stopAt = t.stopAt := by
  unfold Tile.linked
  split
  · exact ⟨rfl, rfl, rfl⟩
  · split
    · exact ⟨rfl, rfl, rfl⟩
    · exact ⟨rfl, rfl, rfl⟩

/-- Tile k's column once the scan contexts have had their turn: `x` after `s`. -/
structure ScannedTile (k : Nat) (s : State) (x : Tile) : Prop where
  link : x.link = ((s.tile k).linked s.prof s.now k).link
  engine : x.engine = ((s.tile k).linked s.prof s.now k).engine
  runs : (s.tile k).stopAt ≠ some (s.now + 1) → x.scan = scanTaken k s ∧ x.stopAt = (s.tile k).stopAt
  stops : (s.tile k).stopAt = some (s.now + 1) →
    x.scan = { scanTaken k s with current := .noPlate, fade := none, cue := none } ∧ x.stopAt = none ∧
      ∀ sw ∈ x.switches, sw.isScene = false
  switches : Switch.DropsScenes
    ((s.tile k).stopAt ≠ some (s.now + 1) ∧
      ∀ sw ∈ (s.tile k).switches, sw.frame = s.now + 1 → sw.isScene = false)
    ((s.tile k).switches.filter (fun sw => sw.frame != s.now + 1)) x.switches

theorem scheduled_resetTaken (s : State) :
    (scheduleAtFrameStart (beginFrame s)).window.resetTaken = s.window.resetTaken := by
  rw [(onlyIn_scheduleAtFrameStart _).window, beginFrame, (onlyIn_receiveWaiting _).window,
    (onlyIn_endAttempt _).window, advanceFtg, State.setFtg_window, linksAtFrameStart_resetTaken]

theorem scheduled_now (s : State) : (scheduleAtFrameStart (beginFrame s)).now = s.now + 1 :=
  (onlyIn_scheduleAtFrameStart _).now.trans (beginFrame_now s)

theorem scheduled_prof (s : State) : (scheduleAtFrameStart (beginFrame s)).prof = s.prof :=
  (onlyIn_scheduleAtFrameStart _).prof.trans (onlyIn_beginFrame s).prof

theorem scannedTile_scanAtFrameStart {k : Nat} {s v : State} (small : k < 16) (there : k < v.tiles.length)
    (linked : v.tile k = (s.tile k).linked s.prof s.now k) (now : v.now = s.now + 1) (prof : v.prof = s.prof)
    (reset : v.window.resetTaken = s.window.resetTaken) : ScannedTile k s ((scanAtFrameStart v).tile k) := by
  obtain ⟨scan, switches, stopAt⟩ := Tile.linked_rest s.prof s.now k (s.tile k)
  obtain ⟨u, here, same, length, uNow, uProf, uWindow⟩ := scanAtFrameStart_tile (s := v) small
  obtain ⟨-, runs, stops, link, engine⟩ := scanTile_spec (s := u) (k := k) (length ▸ there)
  obtain ⟨drops, bare⟩ := scanTile_switches (s := u) (k := k) (length ▸ there)
  rw [same, linked] at runs stops link engine drops bare
  rw [uNow, now, uProf, prof, uWindow, reset, scan, switches] at runs stops
  rw [uNow, now, switches, stopAt] at drops
  rw [uNow, now, stopAt] at bare
  rw [stopAt] at runs stops
  rw [here]
  exact ⟨link, engine, runs, fun h => ⟨(stops h).1, (stops h).2, bare h⟩, drops⟩

theorem scannedTile_frameScanned {k : Nat} {s : State} (small : k < 16) (there : k < s.tiles.length) :
    ScannedTile k s ((frameScanned s).tile k) := by
  rw [frameScanned]
  refine scannedTile_scanAtFrameStart small ?_ ?_ (scheduled_now s) (scheduled_prof s) (scheduled_resetTaken s)
  · rwa [scheduled_tiles, linksAtFrameStart_length]
  · rw [State.tile_of_tiles (scheduled_tiles s), linksAtFrameStart_tile small there]

theorem frameScanned_length (s : State) : (frameScanned s).tiles.length = s.tiles.length := by
  rw [frameScanned, scanAtFrameStart_length, scheduled_tiles, linksAtFrameStart_length]

/-! ## The level request (R89) -/

/-- The state at which a waiting level request is tried. -/
def frameStopped (s : State) : State := completeStop (frameReleased s)

theorem onlyIn_frameStopped (s : State) : OnlyIn [.commit, .store, .report, .window] (frameScanned s) (frameStopped s) :=
  (onlyIn_frameReleased s).comp (onlyIn_completeStop _)

theorem frameStopped_now (s : State) : (frameStopped s).now = s.now + 1 :=
  (onlyIn_completeStop _).now.trans (frameReleased_now s)

theorem frameStopped_prof (s : State) : (frameStopped s).prof = s.prof :=
  (onlyIn_completeStop _).prof.trans (frameReleased_prof s)

theorem frameStopped_horizon (s : State) : (frameStopped s).horizon = s.horizon :=
  congrArg (fun p : Profile => p.lmax + 1) (frameStopped_prof s)

theorem completeStop_commit (s : State) :
    (completeStop s).commit = { s.commit with
      stopFrame := if s.commit.stopFrame = some s.now then none else s.commit.stopFrame } := by
  unfold completeStop
  split <;> rfl

theorem frameStopped_request (s : State) : (frameStopped s).commit.levelRequest = s.commit.levelRequest := by
  rw [frameStopped, completeStop_commit]
  dsimp only
  exact (frameKeeps_frameReleased s).request

theorem requestLevel_length (set : LevelSet) (s : State) : (requestLevel set s).tiles.length = s.tiles.length := by
  by_cases room : ∀ k, k < s.prof.tiles → s.pendingRoom k = true
  · rw [requestLevel_placed set room, forTiles_placeSwitch_length]
    rfl
  · push Not at room
    obtain ⟨k, small, full⟩ := room
    rw [requestLevel_waits set ⟨k, small, by simpa using full⟩]
    rfl

theorem requestLevel_tile_gains (set : LevelSet) (s : State) (k : Nat) :
    (s.tile k).Gains ((requestLevel set s).tile k) := by
  by_cases room : ∀ k, k < s.prof.tiles → s.pendingRoom k = true
  · rw [requestLevel_placed set room]
    by_cases there : k < s.tiles.length
    · by_cases below : k < s.prof.tiles
      · rw [forTiles_placeSwitch_tile _ _ below (by exact there)]
        exact Tile.gains_placed _ (fun _ => rfl) _ _
      · rw [forTiles_placeSwitch_tile_of_le _ _ _ (Nat.le_of_not_lt below)]
        exact .refl _
    · rw [State.tile_of_length_le (Nat.le_of_not_lt there),
        State.tile_of_length_le (by rw [forTiles_placeSwitch_length]; exact Nat.le_of_not_lt there)]
      exact .refl _
  · push Not at room
    obtain ⟨k, small, full⟩ := room
    rw [requestLevel_waits set ⟨k, small, by simpa using full⟩]
    exact .refl _

theorem requestLevel_commit (set : LevelSet) (s : State) :
    (requestLevel set s).commit = { s.commit with
      levelRequest := (requestLevel set s).commit.levelRequest
      commitCount := (requestLevel set s).commit.commitCount } := by
  obtain ⟨placed, waits⟩ := requestLevel_spec set s
  by_cases room : ∀ k, k < s.prof.tiles → (s.tile k).switches.countP (fun sw => sw.frame != s.now) < 16
  · rw [(placed room).1]
  · rw [waits room]
    rfl

theorem retryLevelRequest_none {s : State} (h : s.commit.levelRequest = none) : retryLevelRequest s = s := by
  unfold retryLevelRequest
  rw [h]

theorem retryLevelRequest_some {s : State} {q : LevelRequest} (h : s.commit.levelRequest = some q) :
    retryLevelRequest s = requestLevel q.set s := by
  unfold retryLevelRequest
  rw [h]

theorem retryLevelRequest_length (s : State) : (retryLevelRequest s).tiles.length = s.tiles.length := by
  unfold retryLevelRequest
  split
  · rfl
  · exact requestLevel_length _ s

theorem retryLevelRequest_tile_gains (s : State) (k : Nat) : (s.tile k).Gains ((retryLevelRequest s).tile k) := by
  unfold retryLevelRequest
  split
  · exact .refl _
  · exact requestLevel_tile_gains _ s k

theorem retryLevelRequest_commit (s : State) :
    (retryLevelRequest s).commit = { s.commit with
      levelRequest := (retryLevelRequest s).commit.levelRequest
      commitCount := (retryLevelRequest s).commit.commitCount } := by
  unfold retryLevelRequest
  split
  · rfl
  · exact requestLevel_commit _ s

/-! ## The engines (R118, R119) -/

theorem prepareEngines_length (s : State) : (prepareEngines s).tiles.length = s.tiles.length := by
  rw [prepareEngines, State.setTiles_tiles, List.length_map]

theorem prepareEngines_tile {k : Nat} {s : State} (there : k < s.tiles.length) :
    (prepareEngines s).tile k =
      { s.tile k with engine := (s.tile k).engine.prepare (s.tile k).scan (s.tile k).link.startState } := by
  simp [prepareEngines, State.tile, State.setTiles, there]

/-! ## Up to the refresh -/

theorem untilRefresh_length (s : State) : (untilRefresh s).tiles.length = s.tiles.length := by
  rw [untilRefresh_eq, prepareEngines_length, retryLevelRequest_length, (onlyIn_completeStop _).tiles,
    (onlyIn_frameReleased s).tiles, frameScanned_length]

/-- Tile k's column at the refresh: that of the scan contexts' turn with the level request's switch, if it was placed, and
the engine prepared. -/
theorem untilRefresh_tile {k : Nat} {s : State} (there : k < s.tiles.length) :
    ∃ y, ((frameScanned s).tile k).Gains y ∧
      (untilRefresh s).tile k = { y with engine := y.engine.prepare y.scan y.link.startState } ∧
      y = (retryLevelRequest (frameStopped s)).tile k := by
  have gains := retryLevelRequest_tile_gains (frameStopped s) k
  rw [(onlyIn_frameStopped s).tile k] at gains
  refine ⟨(retryLevelRequest (frameStopped s)).tile k, gains, ?_, rfl⟩
  rw [untilRefresh_eq, ← frameStopped, prepareEngines_tile]
  rwa [retryLevelRequest_length, (onlyIn_frameStopped s).tiles, frameScanned_length]

theorem untilRefresh_now (s : State) : (untilRefresh s).now = s.now + 1 :=
  ((onlyIn_prepareEngines _).now.trans (onlyIn_retryLevelRequest _).now).trans (frameStopped_now s)

theorem untilRefresh_prof (s : State) : (untilRefresh s).prof = s.prof :=
  ((onlyIn_prepareEngines _).prof.trans (onlyIn_retryLevelRequest _).prof).trans (frameStopped_prof s)

theorem untilRefresh_horizon (s : State) : (untilRefresh s).horizon = s.horizon :=
  congrArg (fun p : Profile => p.lmax + 1) (untilRefresh_prof s)

theorem onlyIn_untilRefresh_frameStopped (s : State) : OnlyIn [.commit, .tiles] (frameStopped s) (untilRefresh s) :=
  (onlyIn_retryLevelRequest _).trans ((onlyIn_prepareEngines _).mono (by decide))

theorem untilRefresh_commit (s : State) :
    (untilRefresh s).commit = { (frameStopped s).commit with
      levelRequest := (untilRefresh s).commit.levelRequest, commitCount := (untilRefresh s).commit.commitCount } := by
  have retried : (untilRefresh s).commit = (retryLevelRequest (frameStopped s)).commit := by
    rw [untilRefresh_eq, (onlyIn_prepareEngines _).commit, frameStopped]
  rw [retried]
  exact retryLevelRequest_commit (frameStopped s)

/-! ## From the refresh on -/

/-- A frame start taken as far as the end of its run of attempts. -/
def frameRun (s : State) : State :=
  attemptRun ((takeRefresh (untilRefresh s)).scheduler.queue.length + 1) (markAttemptable (takeRefresh (untilRefresh s)))

theorem wholeFrameStart_eq (s : State) : wholeFrameStart s = pollLink (frameRun s) := rfl

theorem exec_frameStart_whole {s : State} (running : s.ftg.running = true) (fresh : s.ftg.begun = false) :
    exec .frameStart s = .next (dryEdge s (wholeFrameStart s)) := by
  rw [exec_frameStart, frameStart_of_not_begun running fresh]

theorem onlyIn_marked (s : State) :
    OnlyIn [.report, .scheduler] s (markAttemptable (takeRefresh s)) :=
  ((onlyIn_takeRefresh s).mono (by decide)).trans ((onlyIn_mapQueue _ _).mono (by decide))

theorem runKeeps_of_onlyIn {s t : State} (h : OnlyIn [.report, .scheduler] s t) : RunKeeps s t where
  length := by rw [h.tiles]
  tile k := by rw [h.tile k]; exact .refl _
  told := by rw [h.follower]; exact .refl _
  beat := ⟨h.now, h.horizon⟩
  commit := by rw [h.commit]
  due := by rw [h.commit]; exact ⟨fun _ x => x, fun _ x => .inl x⟩

/-- What the run of attempts keeps since the refresh. -/
theorem runKeeps_frameRun (s : State) : RunKeeps (untilRefresh s) (frameRun s) :=
  (runKeeps_of_onlyIn (onlyIn_marked _)).trans (runKeeps_attemptRun _ _)

theorem frameRun_report (s : State) : (frameRun s).report = (takeRefresh (untilRefresh s)).report :=
  (attemptRun_keeps _ _).1.trans (onlyIn_mapQueue _ _).report

/-- The parts of the Register Window that attention does not touch. -/
def Window.SameButAttention (w w' : Window) : Prop :=
  w'.wall = w.wall ∧ w'.main = w.main ∧ w'.side = w.side ∧ w'.adoption = w.adoption ∧ w'.resetTaken = w.resetTaken

theorem dryEdge_sameButAttention (before after : State) :
    after.window.SameButAttention (dryEdge before after).window := by
  rcases dryEdge_eq before after with h | h <;> rw [h]
  · exact ⟨rfl, rfl, rfl, rfl, rfl⟩
  · exact ⟨raise_wall _ _, raise_main _ _, raise_side _ _, raise_adoption _ _, raise_resetTaken _ _⟩

/-- The follower after its poll of the chain's end (R42). -/
def Follower.polled (f : Follower) : Follower :=
  if f.state = .awaitLink ∧ f.fetch = none then { f with fetch := some (.link f.follow none) } else f

theorem pollLink_follower (s : State) : (pollLink s).follower = s.follower.polled := by
  unfold pollLink Follower.polled
  split <;> rfl

theorem Follower.polled_follow (f : Follower) : f.polled.follow = f.follow := by
  unfold Follower.polled
  split <;> rfl

/-- What a frame start as a whole, `t`, keeps of the state `u` at its refresh. -/
structure FrameEnd (u t : State) : Prop where
  length : t.tiles.length = u.tiles.length
  tile : ∀ k, (u.tile k).Gains (t.tile k)
  now : t.now = u.now
  clock : t.ftg.clock = u.ftg.clock
  commit : t.commit = { u.commit with
    due := t.commit.due, commitCount := t.commit.commitCount, attempt := t.commit.attempt }
  due : u.commit.due ⊆ t.commit.due ∧ ∀ d ∈ t.commit.due, d ∈ u.commit.due ∨ d.visible = u.now + u.horizon
  report : t.report = (takeRefresh u).report
  store : t.store = u.store
  ambient : t.ambient = u.ambient
  window : u.window.SameButAttention t.window
  follower : ∃ f, u.follower.Told f ∧ t.follower = f.polled
  rises : AttentionRises u t

theorem FrameEnd.stopFrame {u t : State} (h : FrameEnd u t) : t.commit.stopFrame = u.commit.stopFrame := by
  rw [h.commit]

theorem FrameEnd.levelRequest {u t : State} (h : FrameEnd u t) : t.commit.levelRequest = u.commit.levelRequest := by
  rw [h.commit]

theorem FrameEnd.showing {u t : State} (h : FrameEnd u t) : t.commit.showing = u.commit.showing := by rw [h.commit]

theorem FrameEnd.handoff {u t : State} (h : FrameEnd u t) : t.commit.handoff = u.commit.handoff := by rw [h.commit]

theorem onlyIn_frameRun (s : State) :
    OnlyIn [.commit, .tiles, .ftg, .scheduler, .follower, .report] (untilRefresh s) (frameRun s) :=
  ((onlyIn_marked _).mono (by decide)).trans ((onlyIn_attemptRun _ _).mono (by decide))

theorem frameRun_clock (s : State) : (frameRun s).ftg.clock = (untilRefresh s).ftg.clock := by
  obtain ⟨sets, ftg⟩ := attemptRun_ftg ((takeRefresh (untilRefresh s)).scheduler.queue.length + 1)
    (markAttemptable (takeRefresh (untilRefresh s)))
  rw [frameRun, ftg, (onlyIn_marked _).ftg]

/-- What the poll and DRY keep of the state `v` after the run of attempts. -/
theorem FrameEnd.of_run {s u v : State} (run : RunKeeps u v) (only : OnlyIn [.commit, .tiles, .ftg, .scheduler, .follower,
    .report] u v) (report : v.report = (takeRefresh u).report) (clock : v.ftg.clock = u.ftg.clock) :
    FrameEnd u (dryEdge s (pollLink v)) := by
  have stays : OnlyIn [.follower, .window] v (dryEdge s (pollLink v)) :=
    onlyIn_dryEdge s ((onlyIn_pollLink v).mono (by decide)) (by decide)
  have window : u.window.SameButAttention (dryEdge s (pollLink v)).window := by
    have same := dryEdge_sameButAttention s (pollLink v)
    rwa [(onlyIn_pollLink v).window, only.window] at same
  have rises : AttentionRises u (dryEdge s (pollLink v)) :=
    (only.attentionRises.trans (onlyIn_pollLink v).attentionRises).dryEdge s
  have follower : (dryEdge s (pollLink v)).follower = v.follower.polled := by
    rw [(onlyIn_dryEdge_after s _).follower, pollLink_follower]
  generalize dryEdge s (pollLink v) = t at *
  refine ⟨?_, fun k => ?_, ?_, ?_, ?_, ?_, ?_, ?_, ?_, window, ⟨_, run.told, follower⟩, rises⟩
  · rw [stays.tiles, run.length]
  · rw [stays.tile k]; exact run.tile k
  · rw [stays.now, run.beat.1]
  · rw [stays.ftg, clock]
  · rw [stays.commit]; exact run.commit
  · rw [stays.commit]; exact run.due
  · rw [stays.report, report]
  · rw [stays.store, only.store]
  · rw [stays.ambient, only.ambient]

/-- FRAME_START takes the whole frame start. -/
theorem frameStart_ends {s : State} (running : s.ftg.running = true) (fresh : s.ftg.begun = false) :
    ∃ t, exec .frameStart s = .next t ∧ FrameEnd (untilRefresh s) t := by
  rw [exec_frameStart_whole running fresh, wholeFrameStart_eq]
  exact ⟨_, rfl, .of_run (runKeeps_frameRun s) (onlyIn_frameRun s) (frameRun_report s) (frameRun_clock s)⟩

/-- Tile k's column at the end of a frame start. -/
theorem FrameEnd.column {k : Nat} {s t : State} (h : FrameEnd (untilRefresh s) t) (small : k < 16)
    (there : k < s.tiles.length) :
    ∃ y, ScannedTile k s y ∧ (t.tile k).link = y.link ∧ (t.tile k).scan = y.scan ∧ (t.tile k).stopAt = y.stopAt ∧
      (t.tile k).engine = y.engine.prepare y.scan y.link.startState ∧ y.switches.Sublist (t.tile k).switches ∧
      ∀ sw ∈ (t.tile k).switches, sw ∈ y.switches ∨ sw.isScene = false := by
  obtain ⟨z, gains, refreshed, -⟩ := untilRefresh_tile there
  have last := h.tile k
  refine ⟨(frameScanned s).tile k, scannedTile_frameScanned small there, ?_⟩
  generalize (frameScanned s).tile k = y at *
  have z' := gains.rest
  have link : (t.tile k).link = y.link := by rw [last.rest, refreshed, z']
  have scan : (t.tile k).scan = y.scan := by rw [last.rest, refreshed, z']
  have stopAt : (t.tile k).stopAt = y.stopAt := by rw [last.rest, refreshed, z']
  have engine : (t.tile k).engine = y.engine.prepare y.scan y.link.startState := by rw [last.rest, refreshed, z']
  have more := last.added
  have kept := last.kept
  rw [refreshed] at more kept
  exact ⟨link, scan, stopAt, engine, gains.kept.trans kept, fun sw x => (more sw x).elim (gains.added sw) .inr⟩

end Sys2Proof.Machine
end

section
/-! The Tile Link Controllers at a frame start (R135 to R143, R148): losses, joins and the training timer. -/

set_option Elab.async false

namespace Sys2Proof.Machine

/-! ## The controller's action by state -/

section
variable {l : Link} {n grace horizon : Nat}

theorem Link.good_iff (n : Nat) (l : Link) : l.good n = true ↔ BitVec.ofNat 8 n ∈ l.echoes := by
  simp [Link.good, frameTag]

theorem Link.good_eq_false (n : Nat) (l : Link) : l.good n = false ↔ BitVec.ofNat 8 n ∉ l.echoes := by
  rw [← Link.good_iff, Bool.not_eq_true]

theorem Link.atFrameStart_absent_waits (state : l.state = .absent) (timer : l.timer < 59) :
    l.atFrameStart n grace horizon = ({ l with timer := l.timer + 1, echoes := [] }, .quiet) := by
  have early : ¬ Config.absentFrames ≤ l.timer + 1 := by simp only [Config.absentFrames]; omega
  simp [Link.atFrameStart, state, early]

theorem Link.atFrameStart_absent_ends (state : l.state = .absent) (timer : l.timer = 59) :
    l.atFrameStart n grace horizon = ({ l.toTraining with echoes := [] }, .absentIdentify) := by
  simp [Link.atFrameStart, state, timer, Config.absentFrames]

theorem Link.atFrameStart_training_waits (state : l.state = .training) (timer : l.timer < 29) :
    l.atFrameStart n grace horizon = ({ l with timer := l.timer + 1, echoes := [] }, .quiet) := by
  have early : ¬ Config.trainingFrames ≤ l.timer + 1 := by simp only [Config.trainingFrames]; omega
  simp [Link.atFrameStart, state, early]

theorem Link.atFrameStart_training_ends (state : l.state = .training) (timer : l.timer = 29) :
    l.atFrameStart n grace horizon = ({ l with state := .absent, timer := 0, echoes := [] }, .trainingTimeout) := by
  simp [Link.atFrameStart, state, timer, Config.trainingFrames]

theorem Link.atFrameStart_lost_heard (state : l.state = .lost) (started : l.startState = .lost)
    (heard : l.good n = true) :
    l.atFrameStart n grace horizon = ({ l.toTraining with echoes := [] }, .rejoin) := by
  simp [Link.atFrameStart, state, started, heard]

theorem Link.atFrameStart_lost_waits (state : l.state = .lost) (silent : l.good n = false) (timer : l.timer < 59) :
    l.atFrameStart n grace horizon = ({ l with timer := l.timer + 1, echoes := [] }, .quiet) := by
  have early : ¬ Config.absentFrames ≤ l.timer + 1 := by simp only [Config.absentFrames]; omega
  simp [Link.atFrameStart, state, silent, early]

theorem Link.atFrameStart_lost_ends (state : l.state = .lost) (silent : l.good n = false) (timer : l.timer = 59) :
    l.atFrameStart n grace horizon = ({ l with state := .absent, timer := 0, echoes := [] }, .lostTimeout) := by
  simp [Link.atFrameStart, state, silent, timer, Config.absentFrames]

/-- The link states whose frames are judged for grace act alike (R141, R142). -/
theorem Link.atFrameStart_graced (state : l.state.graced = true) :
    l.atFrameStart n grace horizon =
      ({ (l.stepGraced n grace horizon).1 with echoes := [] }, (l.stepGraced n grace horizon).2) := by
  cases h : l.state with
  | absent => rw [h] at state; exact absurd state (by decide)
  | training => rw [h] at state; exact absurd state (by decide)
  | lost => rw [h] at state; exact absurd state (by decide)
  | misfit => simp [Link.atFrameStart, h]
  | joining => simp [Link.atFrameStart, h]
  | inStep => simp [Link.atFrameStart, h]

/-- Grace applied to a frame whose start the link spent in a graced state, and to one it did not. -/
theorem Link.applyGrace_judged (judged : l.startState.graced = true) :
    l.applyGrace n = { l with
      missRun := if l.good n then 0 else l.missRun + 1
      missCount := if l.good n then l.missCount else min (l.missCount + 1) 65535 } := by
  unfold Link.applyGrace
  rw [if_pos judged]
  split <;> rfl

theorem Link.applyGrace_unjudged (unjudged : l.startState.graced = false) : l.applyGrace n = l := by
  unfold Link.applyGrace
  rw [unjudged]
  rfl

theorem Link.stepGraced_lost (judged : l.startState.graced = true) (miss : l.good n = false)
    (run : grace ≤ l.missRun + 1) :
    l.stepGraced n grace horizon =
      ({ l with missCount := min (l.missCount + 1) 65535, state := .lost, timer := 0, missRun := 0 },
        .graceExpired) := by
  simp [Link.stepGraced, Link.applyGrace_judged judged, judged, miss, run]

theorem Link.stays_of_short (short : l.good n = true ∨ l.missRun + 1 < grace) :
    (l.startState.graced && !l.good n && decide (grace ≤ (l.applyGrace n).missRun)) = false := by
  cases judged : l.startState.graced with
  | false => rfl
  | true =>
    rw [Link.applyGrace_judged judged]
    cases good : l.good n with
    | true => rfl
    | false =>
      have early := short.resolve_left (by rw [good]; decide)
      simpa using early

theorem Link.stepGraced_joined (short : l.good n = true ∨ l.missRun + 1 < grace) (state : l.state = .joining)
    (started : l.startState.carries = true) (count : horizon ≤ (l.applyGrace n).joinCount + 1) :
    l.stepGraced n grace horizon =
      ({ l.applyGrace n with joinCount := (l.applyGrace n).joinCount + 1, state := .inStep }, .joinComplete) := by
  simp only [Link.stepGraced]
  rw [if_neg (by rw [Link.stays_of_short short]; decide), if_pos ⟨state, started⟩, if_pos count]

theorem Link.stepGraced_joins (short : l.good n = true ∨ l.missRun + 1 < grace) (state : l.state = .joining)
    (started : l.startState.carries = true) (count : (l.applyGrace n).joinCount + 1 < horizon) :
    l.stepGraced n grace horizon =
      ({ l.applyGrace n with joinCount := (l.applyGrace n).joinCount + 1 }, .quiet) := by
  simp only [Link.stepGraced]
  rw [if_neg (by rw [Link.stays_of_short short]; decide), if_pos ⟨state, started⟩, if_neg (Nat.not_le.2 count)]

theorem Link.stepGraced_stays (short : l.good n = true ∨ l.missRun + 1 < grace ∨ l.startState.graced = false)
    (other : ¬ (l.state = .joining ∧ l.startState.carries = true)) :
    l.stepGraced n grace horizon = (l.applyGrace n, .quiet) := by
  have stays : (l.startState.graced && !l.good n && decide (grace ≤ (l.applyGrace n).missRun)) = false := by
    rcases short with h | h | h
    · exact Link.stays_of_short (.inl h)
    · exact Link.stays_of_short (.inr h)
    · rw [h]; rfl
  simp only [Link.stepGraced]
  rw [if_neg (by rw [stays]; decide), if_neg other]

end

/-! ## The action taken ahead, and at the frame start -/

section
variable {k : Nat} {s : State} {r : Link} {event : LinkEvent}

/-- The link and engine of tile k at the end of a frame start at which its controller acts. -/
theorem frameStart_link (running : s.ftg.running = true) (fresh : s.ftg.begun = false) (small : k < 16)
    (below : k < s.prof.tiles) (there : k < s.tiles.length) (due : (s.tile k).link.stepped = false)
    (acts : (s.tile k).link.atFrameStart s.now s.prof.grace s.horizon = (r, event)) :
    ∃ t, exec .frameStart s = .next t ∧ (t.tile k).link = r.sendHeader (s.now + 1) ∧
      (t.tile k).engine.active = r.state.carries ∧ (event.raisesTile = true → t.flag .tile = true) := by
  obtain ⟨t, ran, done⟩ := frameStart_ends running fresh
  refine ⟨t, ran, ?_⟩
  obtain ⟨y, scanned, link, -, -, engine, -⟩ := done.column small there
  have linked : ((s.tile k).linked s.prof s.now k).link = r.sendHeader (s.now + 1) := by
    unfold Tile.linked
    rw [if_neg (Nat.not_le.2 below), if_neg (by rw [due]; decide)]
    have : (s.tile k).link.atFrameStart s.now s.prof.grace (s.prof.lmax + 1) = (r, event) := acts
    rw [this]
  have sent : y.link = r.sendHeader (s.now + 1) := scanned.link.trans linked
  refine ⟨link.trans sent, ?_, fun raises => ?_⟩
  · rw [engine, sent]
    rfl
  · have raised : (linksAtFrameStart s).flag .tile = true :=
      linksAtFrameStart_flag small below there due (by rw [acts]; exact raises)
    have scheduled : AttentionRises (linksAtFrameStart s) (scheduleAtFrameStart (beginFrame s)) := by
      refine AttentionRises.frame (AttentionRises.of_same ?_) (onlyIn_scheduleAtFrameStart (beginFrame s))
      have same : (beginFrame s).window = (linksAtFrameStart s).window := by
        rw [beginFrame, (onlyIn_receiveWaiting _).window, (onlyIn_endAttempt _).window, advanceFtg,
          State.setFtg_window]
      rw [same]
      exact ⟨rfl, rfl, rfl, rfl⟩
    have later : AttentionRises (scheduleAtFrameStart (beginFrame s)) (untilRefresh s) :=
      (((attentionRises_scanAtFrameStart _).trans (attentionRises_completeAtFrameStart _)).frame
        (onlyIn_retryLevelRequest _)).frame (onlyIn_prepareEngines _)
    exact ((scheduled.trans later).trans done.rises).flag raised

theorem linkAhead_other (other : ((s.tile k).link.atFrameStart s.now s.prof.grace s.horizon).2 ≠ event) :
    linkAhead event k s = s := by
  unfold linkAhead
  rw [if_neg fun h => other h.2.2.2.2]

end

/-- Settles O52. -/
theorem trainingTimerEnds : Obligations.TrainingTimerEnds := by
  intro k s running small below there due l heard becomes
  have started {r : Link} {event : LinkEvent} {timer : Nat} (fresh : s.ftg.begun = false)
      (acts : l.atFrameStart s.now s.prof.grace s.horizon = (r, event)) (ends : r.timer = timer)
      (kept : r.missCount = l.missCount ∧ r.descriptor = l.descriptor) :
      ∃ t, exec .frameStart s = .next t ∧ becomes r.state timer r.identifyDue t := by
    obtain ⟨t, ran, link, -⟩ := frameStart_link running fresh small below there due acts
    refine ⟨t, ran, ?_⟩
    dsimp only [becomes]
    rw [link]
    exact ⟨rfl, ends, kept.1, kept.2, rfl⟩
  have both {r : Link} {event : LinkEvent} (acts : l.atFrameStart s.now s.prof.grace s.horizon = (r, event))
      (quiet : event.raisesTile = false) (ends : r.timer = 0)
      (kept : r.missCount = l.missCount ∧ r.descriptor = l.descriptor) :
      (∃ t, (.next (linkAhead event k s) : Host.Outcome State Fault Refusal) = .next t ∧ OnlyIn [.tiles] s t ∧
        OtherTilesKept k s t ∧ becomes r.state 0 r.identifyDue t) ∧
      (s.ftg.begun = false → ∃ t, exec .frameStart s = .next t ∧ becomes r.state 0 r.identifyDue t) := by
    refine ⟨⟨_, rfl, ?_⟩, fun fresh => started fresh acts ends kept⟩
    obtain ⟨-, others, only, -, tile⟩ := linkAhead_spec event running below there due acts
    refine ⟨only quiet, others, ?_⟩
    dsimp only [becomes]
    rw [tile]
    exact ⟨rfl, ends, kept.1, kept.2, rfl⟩
  refine ⟨fun state silent timer => ?lost, fun state timer => ?absent, fun state timer => ?training,
    fun waits fresh => ?waits⟩
  case lost =>
    exact both (Link.atFrameStart_lost_ends state ((Link.good_eq_false s.now l).2 silent) timer) rfl rfl ⟨rfl, rfl⟩
  case absent => exact both (Link.atFrameStart_absent_ends state timer) rfl rfl ⟨rfl, rfl⟩
  case training => exact both (Link.atFrameStart_training_ends state timer) rfl rfl ⟨rfl, rfl⟩
  case waits =>
    have acts : l.atFrameStart s.now s.prof.grace s.horizon =
        ({ l with timer := l.timer + 1, echoes := [] }, .quiet) := by
      rcases waits with ⟨state, timer⟩ | ⟨state, timer, silent⟩ | ⟨state, timer⟩
      · exact Link.atFrameStart_absent_waits state timer
      · exact Link.atFrameStart_lost_waits state ((Link.good_eq_false s.now l).2 silent) timer
      · exact Link.atFrameStart_training_waits state timer
    exact started (r := { l with timer := l.timer + 1, echoes := [] }) fresh acts rfl ⟨rfl, rfl⟩

theorem graced_of_judged {x : LinkState} (h : x = .joining ∨ x = .inStep ∨ x = .misfit) : x.graced = true := by
  rcases h with rfl | rfl | rfl <;> rfl

/-- Settles O51. -/
theorem linkLossAndJoin : Obligations.LinkLossAndJoin := by
  intro k s running small below there due l good judged
  refine ⟨fun state judged miss run => ?lost, fun state started short => ?joining,
    fun state judged short fresh => ?counted, fun state started => ?accepted,
    fun state started heard fresh => ?rejoin⟩
  case lost =>
    intro lost
    have acts := Link.atFrameStart_graced (n := s.now) (grace := s.prof.grace) (horizon := s.horizon)
      (graced_of_judged state)
    rw [Link.stepGraced_lost (graced_of_judged judged) ((Link.good_eq_false s.now l).2 miss) run] at acts
    refine ⟨⟨_, rfl, ?_⟩, fun fresh => ?_⟩
    · obtain ⟨only, others, -, raised, tile⟩ := linkAhead_spec .graceExpired running below there due acts
      refine ⟨only, others, ?_⟩
      dsimp only [lost]
      rw [tile]
      exact ⟨⟨rfl, rfl, rfl, rfl, rfl, rfl, rfl, raised rfl⟩, rfl, rfl, rfl⟩
    · obtain ⟨t, ran, link, engine, raised⟩ := frameStart_link running fresh small below there due acts
      refine ⟨t, ran, ?_⟩
      dsimp only [lost]
      rw [link]
      exact ⟨rfl, rfl, rfl, rfl, rfl, rfl, engine, raised rfl⟩
  case joining =>
    intro after
    have short' : l.good s.now = true ∨ l.missRun + 1 < s.prof.grace := short.imp (Link.good_iff _ _).2 id
    have carries : l.startState.carries = true := by rcases started with h | h <;> rw [h] <;> rfl
    have graced : l.startState.graced = true := graced_of_judged (started.imp id .inl)
    have applied := Link.applyGrace_judged (n := s.now) graced
    have missRun : (if l.good s.now then 0 else l.missRun + 1) = if good then 0 else l.missRun + 1 := by
      simp only [good, Link.good_iff]
    have missCount : (if l.good s.now then l.missCount else min (l.missCount + 1) 65535) =
        if good then l.missCount else min (l.missCount + 1) 65535 := by
      simp only [good, Link.good_iff]
    have acts := Link.atFrameStart_graced (n := s.now) (grace := s.prof.grace) (horizon := s.horizon)
      (graced_of_judged (.inl state))
    refine ⟨fun full => ?_, fun count fresh => ?_⟩
    · rw [Link.stepGraced_joined short' state carries (by rw [applied]; exact full), applied] at acts
      refine ⟨⟨_, rfl, ?_⟩, fun fresh => ?_⟩
      · obtain ⟨only, others, -, raised, tile⟩ := linkAhead_spec .joinComplete running below there due acts
        refine ⟨only, others, ?_⟩
        dsimp only [after]
        rw [tile]
        exact ⟨⟨missRun, missCount, rfl, rfl⟩, rfl, rfl, rfl, raised rfl⟩
      · obtain ⟨t, ran, link, engine, raised⟩ := frameStart_link running fresh small below there due acts
        refine ⟨t, ran, ?_⟩
        dsimp only [after]
        rw [link]
        exact ⟨⟨missRun, missCount, rfl, rfl⟩, rfl, engine, raised rfl⟩
    · rw [Link.stepGraced_joins short' state carries (by rw [applied]; exact count), applied] at acts
      obtain ⟨t, ran, link, engine, raised⟩ := frameStart_link running fresh small below there due acts
      refine ⟨t, ran, ?_⟩
      dsimp only [after]
      rw [link]
      exact ⟨⟨missRun, missCount, rfl, rfl⟩, state, rfl⟩
  case counted =>
    have short' : l.good s.now = true ∨ l.missRun + 1 < s.prof.grace := short.imp (Link.good_iff _ _).2 id
    have other : ¬ (l.state = .joining ∧ l.startState.carries = true) := by
      rintro ⟨h, -⟩
      rcases state with h' | h' <;> simp [h'] at h
    have acts := Link.atFrameStart_graced (n := s.now) (grace := s.prof.grace) (horizon := s.horizon)
      (graced_of_judged (.inr state))
    rw [Link.stepGraced_stays (short'.imp id .inl) other, Link.applyGrace_judged (graced_of_judged judged)] at acts
    obtain ⟨t, ran, link, -⟩ := frameStart_link running fresh small below there due acts
    refine ⟨t, ran, ?_⟩
    rw [link]
    refine ⟨rfl, ?_, ?_⟩
    · simp only [good, Link.good_iff]
      rfl
    · simp only [good, Link.good_iff]
      rfl
  case accepted =>
    have unjudged : l.startState.graced = false := by rw [started]; rfl
    have other : ¬ (l.state = .joining ∧ l.startState.carries = true) := by
      rintro ⟨-, h⟩
      rw [started] at h
      exact absurd h (by decide)
    have acts := Link.atFrameStart_graced (n := s.now) (grace := s.prof.grace) (horizon := s.horizon)
      (graced_of_judged (state.imp id .inr))
    rw [Link.stepGraced_stays (.inr (.inr unjudged)) other, Link.applyGrace_unjudged unjudged] at acts
    have idle {event : LinkEvent} (h : LinkEvent.quiet ≠ event) : linkAhead event k s = s :=
      linkAhead_other (by rw [acts]; exact h)
    refine ⟨congrArg Host.Outcome.next (idle (by decide)), congrArg Host.Outcome.next (idle (by decide)),
      fun fresh => ?_⟩
    obtain ⟨t, ran, link, engine, -⟩ := frameStart_link running fresh small below there due acts
    refine ⟨t, ran, ?_⟩
    rw [link, engine]
    refine ⟨rfl, rfl, rfl, rfl, rfl, rfl, rfl, ?_⟩
    show l.state.carries = _
    rcases state with h | h <;> rw [h] <;> rfl
  case rejoin =>
    have acts := Link.atFrameStart_lost_heard (n := s.now) (grace := s.prof.grace) (horizon := s.horizon) state started
      ((Link.good_iff s.now l).2 heard)
    obtain ⟨t, ran, link, engine, -⟩ := frameStart_link running fresh small below there due acts
    refine ⟨t, ran, ?_⟩
    rw [link]
    exact ⟨rfl, rfl, rfl, engine, rfl, rfl⟩

end Sys2Proof.Machine
end

section
/-! What a frame start leaves of the registers, the follower and the refresh (R42, R97, R182), and the waiting level
request (R89). -/

set_option Elab.async false

namespace Sys2Proof.Machine

/-! ## The Chain Follower (R41, R42) -/

theorem receiveDeparting_told (s : State) : s.follower.Told (receiveDeparting s).follower := by
  rcases receiveDeparting_cases s with h | ⟨r, d, _, _, h⟩ <;> rw [h]
  · exact .refl _
  · exact leaveQueue_told r (enqueueOutcome r d.outcome s)

theorem drainDeparting_told (n : Nat) (s : State) : s.follower.Told (drainDeparting n s).follower := by
  induction n generalizing s with
  | zero => exact .refl _
  | succ n ih => exact (receiveDeparting_told s).trans (ih _)

theorem depart_told (pick : Entry → Bool) (why : Departure) (s : State) : s.follower.Told (depart pick why s).follower :=
  drainDeparting_told _ (mapQueue _ s)

theorem receiveWaiting_follower (s : State) :
    (receiveWaiting s).follower = (drainDeparting s.scheduler.queue.length s).follower := by
  rw [receiveWaiting, (onlyIn_foldl _ (fun u _ => onlyIn_receiveHandoff u) _ _).follower,
    (onlyIn_foldl _ (fun u _ => onlyIn_receiveHoldFault u) _ _).follower]

theorem scheduled_told (s : State) : s.follower.Told (scheduleAtFrameStart (beginFrame s)).follower := by
  have begun : s.follower.Told (beginFrame s).follower := by
    rw [beginFrame, receiveWaiting_follower]
    have told := drainDeparting_told (endAttempt (advanceFtg (linksAtFrameStart s))).scheduler.queue.length
      (endAttempt (advanceFtg (linksAtFrameStart s)))
    rw [(onlyIn_endAttempt _).follower, advanceFtg, State.setFtg_follower, (onlyIn_linksAtFrameStart s).follower] at told
    exact told
  refine begun.trans ?_
  rw [scheduleAtFrameStart, (onlyIn_fixTargets _).follower]
  exact depart_told _ _ _

theorem untilRefresh_follower (s : State) : (untilRefresh s).follower = (scheduleAtFrameStart (beginFrame s)).follower := by
  rw [(onlyIn_untilRefresh_frameStopped s).follower, (onlyIn_frameStopped s).follower, frameScanned,
    (onlyIn_scanAtFrameStart _).follower]

theorem untilRefresh_told (s : State) : s.follower.Told (untilRefresh s).follower := by
  rw [untilRefresh_follower]
  exact scheduled_told s

/-- A follower in AWAIT_LINK comes out of a frame start as it was, but for the poll. -/
theorem FrameEnd.follower_of_awaitLink {s t : State} (h : FrameEnd (untilRefresh s) t)
    (state : s.follower.state = .awaitLink) : t.follower = s.follower.polled := by
  obtain ⟨f, told, polled⟩ := h.follower
  rw [polled, ((untilRefresh_told s).trans told).2.1 (by rw [state]; decide) (by rw [state]; decide)]

/-- Settles O48. -/
theorem linkWordIsJudged : Obligations.LinkWordIsJudged := by
  refine ⟨fun s running fresh state => ?polls, fun a w s reading => ?returns⟩
  case polls =>
    obtain ⟨t, ran, done⟩ := frameStart_ends running fresh
    rw [ran]
    refine ⟨t, rfl, fun idle => ?_, fun busy => ?_⟩
    · rw [done.follower_of_awaitLink state, Follower.polled, if_pos ⟨state, idle⟩]
    · rw [done.follower_of_awaitLink state, Follower.polled, if_neg fun h => busy h.2]
  case returns =>
    refine ⟨linkReturned s, rfl, onlyIn_linkReturned s, fun zero => ?_, fun good => ?_, fun other bad => ?_⟩
    · simp [linkReturned, reading, zero]
    · have nonzero : w ≠ 0 := fun h => good.1 (by rw [h]; rfl)
      have fine : badLink w.toNat = false := by rw [badLink, (badAddress_iff _).2 good, Bool.and_false]
      have followed : linkReturned s =
          s.setFollower { s.follower with state := .fetching, follow := w.toNat, fetch := none } := by
        simp only [linkReturned, reading, if_neg nonzero, fine, Bool.false_eq_true, if_false]
      rw [followed]
      exact ⟨rfl, rfl⟩
    · have nonzero : w.toNat ≠ 0 := fun h => other (BitVec.eq_of_toNat_eq (h.trans rfl))
      have bad' : badLink w.toNat = true := by simp [badLink, nonzero, badAddress_of_not_good bad]
      have held : linkReturned s = reportHold (holdRecord s .link a w) (enterHold .link .link a s) := by
        simp only [linkReturned, reading, if_neg other, bad', if_true]
      rw [held]
      exact ⟨(onlyIn_reportHold _ _).follower, handedFault_reportHold _ rfl⟩

/-! ## The completion of a STOP (R97) -/

theorem completeStop_of_due {s : State} (h : s.commit.stopFrame = some s.now) :
    completeStop s = (s.setCommit { s.commit with stopFrame := none }).setWindow
      ({ s.window with wall := .standby }.finish .stop .done) := if_pos h

theorem completeStop_of_not_due {s : State} (h : s.commit.stopFrame ≠ some s.now) : completeStop s = s := if_neg h

theorem Window.finish_wall (c : Command) (r : Result) (w : Window) : (w.finish c r).wall = w.wall := by
  unfold Window.finish
  split
  · split <;> rfl
  · rfl

theorem Window.finish_main {c : Command} {r : Result} {w : Window} (h : w.main = some ⟨c.code, .busy⟩) :
    (w.finish c r).main = some ⟨c.code, r⟩ := by
  simp [Window.finish, h]

/-- What the frame start of the stop frame makes of the registers and the stop frame. -/
theorem untilRefresh_stopped {s : State} (stops : s.commit.stopFrame = some (s.now + 1)) :
    (untilRefresh s).window.wall = .standby ∧ (untilRefresh s).commit.stopFrame = none ∧
      (s.window.main = some ⟨5, .busy⟩ → (untilRefresh s).window.main = some ⟨5, .done⟩) := by
  rw [untilRefresh_commit, (onlyIn_untilRefresh_frameStopped s).window, frameStopped]
  have keeps := frameKeeps_frameReleased s
  have now := frameReleased_now s
  generalize frameReleased s = r at *
  rw [completeStop_of_due (by rw [keeps.stopFrame, stops, now])]
  exact ⟨Window.finish_wall _ _ _, rfl, fun busy => Window.finish_main (c := .stop) (keeps.main.trans busy)⟩

/-- At the frame start of the stop frame the stop is complete. -/
theorem stopCompletes {s : State} (running : s.ftg.running = true) (fresh : s.ftg.begun = false)
    (stops : s.commit.stopFrame = some (s.now + 1)) :
    ∃ t, exec .frameStart s = .next t ∧ t.window.wall = .standby ∧ t.commit.stopFrame = none ∧
      (s.window.main = some ⟨5, .busy⟩ → t.window.main = some ⟨5, .done⟩) := by
  obtain ⟨t, ran, done⟩ := frameStart_ends running fresh
  obtain ⟨wall, stopFrame, main⟩ := untilRefresh_stopped stops
  exact ⟨t, ran, done.window.1.trans wall, done.stopFrame.trans stopFrame,
    fun busy => done.window.2.1.trans (main busy)⟩

/-- Settles O28. -/
theorem stopPlacesTheStopFrame : Obligations.StopPlacesTheStopFrame :=
  ⟨fun _ wall idle => stopTaken wall idle, fun _ running fresh stops => stopCompletes running fresh stops⟩

/-! ## The waiting level request (R89) -/

/-- The switches of tile k that wait past a frame start (R83). -/
def waitingPast (frame : Nat) (t : Tile) : Nat := t.switches.countP (fun sw => sw.frame != frame)

theorem linksAtFrameStart_tile_of_le {k : Nat} {s : State} (past : 16 ≤ k) : (linksAtFrameStart s).tile k = s.tile k := by
  rw [linksAtFrameStart]
  exact forTiles_tile_of_le otherTilesKept_stepLinkUnlessDone s past

theorem frameScanned_tile_of_le {k : Nat} {s : State} (past : 16 ≤ k) : (frameScanned s).tile k = s.tile k := by
  rw [frameScanned, scanAtFrameStart, State.setWindow_tile,
    forTiles_tile_of_le otherTilesKept_scanTile _ (show Config.tileCount ≤ k from past),
    State.tile_of_tiles (scheduled_tiles s), linksAtFrameStart_tile_of_le past]

theorem waitingPast_frameScanned_le (k : Nat) (s : State) :
    waitingPast (s.now + 1) ((frameScanned s).tile k) ≤ waitingPast (s.now + 1) (s.tile k) := by
  by_cases small : k < 16
  · by_cases there : k < s.tiles.length
    · have left := (scannedTile_frameScanned small there).switches.sublist
      exact (left.trans List.filter_sublist).countP_le
    · rw [State.tile_of_length_le (by rw [frameScanned_length]; exact Nat.le_of_not_lt there)]
      exact Nat.zero_le _
  · rw [frameScanned_tile_of_le (Nat.le_of_not_lt small)]

theorem waitingPast_frameScanned {k : Nat} {s : State} (small : k < 16)
    (runs : (s.tile k).stopAt ≠ some (s.now + 1))
    (bare : ∀ sw ∈ (s.tile k).switches, sw.frame = s.now + 1 → sw.isScene = false) :
    waitingPast (s.now + 1) ((frameScanned s).tile k) = waitingPast (s.now + 1) (s.tile k) := by
  by_cases there : k < s.tiles.length
  · obtain ⟨keep, left, -, every⟩ := (scannedTile_frameScanned small there).switches
    rw [waitingPast, left, waitingPast, List.countP_filter, List.countP_filter]
    exact List.countP_congr fun sw _ => by simp [every ⟨runs, bare⟩ sw]
  · rw [State.tile_of_length_le (by rw [frameScanned_length]; exact Nat.le_of_not_lt there),
      State.tile_of_length_le (Nat.le_of_not_lt there)]

/-- A waiting set change is tried at a frame start with V = now + H. -/
theorem levelRequestRetried {q : LevelRequest} {s : State} (running : s.ftg.running = true)
    (fresh : s.ftg.begun = false) (request : s.commit.levelRequest = some q) :
    ∃ t, exec .frameStart s = .next t ∧
      ((∀ k, k < s.prof.tiles → waitingPast (s.now + 1) (s.tile k) < 16) →
        t.commit.levelRequest = none ∧ ∀ k, k < s.prof.tiles → k < s.tiles.length →
          ⟨s.now + 1 + s.horizon - ((t.tile k).link.latency.getD s.prof.lmax), .level q.set⟩ ∈ (t.tile k).switches) ∧
      ((∃ k, k < s.prof.tiles ∧ k < 16 ∧ 16 ≤ waitingPast (s.now + 1) (s.tile k) ∧
          (s.tile k).stopAt ≠ some (s.now + 1) ∧
          ∀ sw ∈ (s.tile k).switches, sw.frame = s.now + 1 → sw.isScene = false) →
        t.commit.levelRequest = some ⟨q.set, s.now + 1 + s.horizon⟩) ∧
      (∀ r, t.commit.levelRequest = some r →
        r = ⟨q.set, s.now + 1 + s.horizon⟩ ∧
          ∃ k, k < s.prof.tiles ∧ 16 ≤ waitingPast (s.now + 1) (t.tile k)) := by
  obtain ⟨t, ran, done⟩ := frameStart_ends running fresh
  refine ⟨t, ran, ?_⟩
  have waiting : (frameStopped s).commit.levelRequest = some q := (frameStopped_request s).trans request
  have levelRequest : t.commit.levelRequest = (retryLevelRequest (frameStopped s)).commit.levelRequest := by
    rw [done.levelRequest, untilRefresh_eq, (onlyIn_prepareEngines _).commit, frameStopped]
  have scanned (k : Nat) : (frameStopped s).tile k = (frameScanned s).tile k := (onlyIn_frameStopped s).tile k
  have length : (frameStopped s).tiles.length = s.tiles.length := by
    rw [(onlyIn_frameStopped s).tiles, frameScanned_length]
  have column (k : Nat) (there : k < s.tiles.length) := untilRefresh_tile (k := k) there
  have now := frameStopped_now s
  have prof := frameStopped_prof s
  have horizon := frameStopped_horizon s
  generalize frameStopped s = u at *
  obtain ⟨placed, waits⟩ := requestLevel_spec q.set u
  rw [← retryLevelRequest_some waiting, prof, now, horizon] at placed waits
  simp only [scanned, length] at placed waits
  refine ⟨fun room => ?placed, ?waits, fun r left => ?left⟩
  case placed =>
    obtain ⟨commit, tiles⟩ := placed fun k small => (waitingPast_frameScanned_le k s).trans_lt (room k small)
    refine ⟨levelRequest.trans (by rw [commit]), fun k small there => ?_⟩
    obtain ⟨y, -, refreshed, rfl⟩ := column k there
    have last := done.tile k
    rw [refreshed, tiles k small there] at last
    generalize (frameScanned s).tile k = y at last
    have mem := last.kept.subset (Tile.mem_placed (s.now + 1 + s.horizon) (.level q.set) s.prof y)
    rwa [show (t.tile k).link = y.link by rw [last.rest]; rfl]
  case waits =>
    rintro ⟨k, small, below, full, runs, bare⟩
    have crowded : ¬ ∀ k, k < s.prof.tiles →
        ((frameScanned s).tile k).switches.countP (fun sw => sw.frame != s.now + 1) < 16 := by
      intro room
      refine absurd (room k small) (Nat.not_lt.2 ?_)
      exact full.trans (waitingPast_frameScanned below runs bare).ge
    rw [levelRequest, waits crowded]
    rfl
  case left =>
    rw [levelRequest] at left
    by_cases room : ∀ k, k < s.prof.tiles →
        ((frameScanned s).tile k).switches.countP (fun sw => sw.frame != s.now + 1) < 16
    · rw [(placed room).1] at left
      exact absurd left (by simp)
    · rw [waits room] at left
      refine ⟨(Option.some.inj left).symm, ?_⟩
      push Not at room
      obtain ⟨k, small, full⟩ := room
      refine ⟨k, small, full.trans ?_⟩
      have there : k < s.tiles.length := by
        by_contra out
        rw [State.tile_of_length_le (by rw [frameScanned_length]; exact Nat.le_of_not_lt out)] at full
        exact Nat.not_succ_le_zero 15 full
      obtain ⟨y, gains, refreshed, -⟩ := column k there
      have last := (done.tile k).kept
      rw [refreshed] at last
      exact (gains.kept.trans last).countP_le

/-- Settles O58. -/
theorem readingsDecideTheLevelSet : Obligations.ReadingsDecideTheLevelSet :=
  ⟨fun _ polling idle => ambientPoll_reads polling idle, fun x y _ => sensorReading_auto x y,
    fun x y _ => sensorReading_forced x y, fun _ _ running fresh request => levelRequestRetried running fresh request⟩

/-! ## The refresh of a frame start (R182) -/

theorem takeRefresh_full {s : State} (h : s.openPlaces = 0) :
    (takeRefresh s).report = { s.report with skipped := s.report.skipped + 1 } := by
  rw [takeRefresh, if_neg (by rw [h]; decide)]
  rfl

theorem takeRefresh_open {s : State} (h : 0 < s.openPlaces) :
    (takeRefresh s).report = { s.report with
      queue := s.report.queue ++ [.refresh (pageSnapshot s) 0 s.report.tagNew s.report.resultNew]
      tagNew := false, resultNew := false } := by
  rw [takeRefresh, if_pos h]
  rfl

theorem untilRefresh_skipped (s : State) : (untilRefresh s).report.skipped = s.report.skipped := by
  rw [(onlyIn_untilRefresh_frameStopped s).report, frameStopped, (onlyIn_completeStop _).report]
  exact (frameKeeps_frameReleased s).skipped

/-- The page's dwell end of a tile, by its current cue (R95, R188). -/
theorem reportedDwellEnd_spec {s t : State} (showing : t.commit.showing = s.commit.showing) (cue : Option PassId) :
    (cue = none → reportedDwellEnd s cue = some 0) ∧
    (∀ id e, cue = some id → t.commit.showing.find? (fun e => e.id == id) = some e →
      reportedDwellEnd s cue = e.dwellEnd) := by
  refine ⟨fun h => by rw [h]; rfl, fun id e h found => ?_⟩
  rw [h, reportedDwellEnd]
  rw [showing] at found
  simp only [found]

/-- The snapshot of a state's page holds in a state with the same values. -/
theorem pageHolds_pageSnapshot {s t : State} (now : t.now = s.now) (wall : t.window.wall = s.window.wall)
    (follow : t.follower.follow = s.follower.follow) (clock : t.ftg.clock = s.ftg.clock)
    (ambient : t.ambient = s.ambient)
    (counts : t.report.handback = s.report.handback ∧ t.report.tag = s.report.tag ∧
      t.report.skipped = s.report.skipped)
    (showing : t.commit.showing = s.commit.showing) (length : t.tiles.length = s.tiles.length)
    (tile : ∀ k, (t.tile k).link = (s.tile k).link ∧ (t.tile k).engine.underruns = (s.tile k).engine.underruns ∧
      (t.tile k).scan = (s.tile k).scan) : PageHolds (pageSnapshot s) t := by
  refine ⟨now.symm, wall.symm, follow.symm, clock.symm, by rw [ambient]; rfl, by rw [ambient]; rfl,
    by rw [ambient]; rfl, counts.1.symm, counts.2.1.symm, counts.2.2.symm, ?_, fun k r at_k => ?_⟩
  · rw [length]
    exact List.length_map _
  · obtain ⟨x, there, rfl⟩ : ∃ x, s.tiles[k]? = some x ∧ tileReport s x = r := by
      have := (List.getElem?_map (f := tileReport s) (l := s.tiles) (i := k)).symm.trans at_k
      simpa [Option.map_eq_some_iff] using this
    have here : s.tile k = x := by simp [State.tile, there]
    obtain ⟨link, underruns, scan⟩ := tile k
    rw [link, underruns, scan, here]
    exact ⟨rfl, rfl, rfl, rfl, rfl, rfl, (reportedDwellEnd_spec showing x.scan.cue).1,
      (reportedDwellEnd_spec showing x.scan.cue).2⟩

/-- The refresh taken at a frame start holds the values of the part as that frame start leaves them. -/
theorem FrameEnd.pageHolds {u t : State} (h : FrameEnd u t) (room : 0 < u.openPlaces) :
    PageHolds (pageSnapshot u) t := by
  have report := h.report
  rw [takeRefresh_open room] at report
  have follow : t.follower.follow = u.follower.follow := by
    obtain ⟨f, told, polled⟩ := h.follower
    rw [polled, Follower.polled_follow, told.1]
  refine pageHolds_pageSnapshot h.now h.window.1 follow h.clock h.ambient ?_ ?_ h.length fun k => ?_
  · rw [report]; exact ⟨rfl, rfl, rfl⟩
  · rw [h.commit]
  · rw [(h.tile k).rest]; exact ⟨rfl, rfl, rfl⟩

theorem frameStart_refreshes {s : State} (running : s.ftg.running = true) (fresh : s.ftg.begun = false) :
    ∃ t, exec .frameStart s = .next t ∧
    let u := untilRefresh s
    (u.openPlaces = 0 → t.report.skipped = s.report.skipped + 1 ∧ t.report.queue = u.report.queue ∧
      t.report.tagNew = u.report.tagNew ∧ t.report.resultNew = u.report.resultNew) ∧
    (0 < u.openPlaces → ∃ g,
      t.report.queue = u.report.queue ++ [.refresh g 0 u.report.tagNew u.report.resultNew] ∧
      t.report.skipped = s.report.skipped ∧ t.report.tagNew = false ∧ t.report.resultNew = false ∧
      PageHolds g t ∧ g.follower = u.follower.state ∧ g.result = t.store.result) := by
  obtain ⟨t, ran, done⟩ := frameStart_ends running fresh
  refine ⟨t, ran, ?_⟩
  rw [← untilRefresh_skipped s]
  generalize untilRefresh s = u at *
  refine ⟨fun full => ?_, fun room => ⟨pageSnapshot u, ?_⟩⟩
  · rw [done.report, takeRefresh_full full]
    exact ⟨rfl, rfl, rfl, rfl⟩
  · have holds := done.pageHolds room
    rw [done.report, takeRefresh_open room, done.store]
    exact ⟨rfl, rfl, rfl, rfl, holds, rfl, rfl⟩

theorem grantReport_fault {i : Nat} {s : State} {f : FaultRecord} (item : s.report.queue[i]? = some (.fault f false)) :
    (grantReport i s).report = { s.report with queue := s.report.queue.set i (.fault f true) } ∧
    (grantReport i s).mem = writeRuns s.mem s.prof.statusPage (f.runs (s.flag .fault)) := by
  rw [grantReport_eq item]
  simp only [State.setReport_report, State.setReport_mem, State.setMem_mem, QueueItem.perform, and_self]

theorem grantReport_refresh {i n : Nat} {s : State} {g : PageSnapshot} {a b : Bool}
    (item : s.report.queue[i]? = some (.refresh g n a b)) :
    (grantReport i s).report = { s.report with queue := s.report.queue.set i (.refresh g (n + 1) a b) } ∧
    (grantReport i s).mem = Memory.writeBytes s.mem (s.prof.statusPage + 128 * refreshBlock n) (g.burst n) := by
  rw [grantReport_eq item]
  simp only [State.setReport_report, State.setReport_mem, State.setMem_mem, QueueItem.perform, and_self]

/-- Settles O39. -/
theorem pageWritesStayInTheirBlocks : Obligations.PageWritesStayInTheirBlocks := by
  refine ⟨fun s i calm port request wf => ?_, ⟨rfl, rfl, rfl, rfl, rfl⟩,
    fun s running fresh => frameStart_refreshes running fresh⟩
  intro page
  have granted : grantDecision s = grantReport i s := grantDecision_report calm port request
  rw [exec_grantDecision, granted]
  refine ⟨fun f item => ?fault, fun g n a b item few tiles => ?refresh⟩
  case fault =>
    obtain ⟨report, mem⟩ := grantReport_fault item
    refine ⟨grantReport i s, rfl, onlyIn_grantReport i s, report, ?_⟩
    rw [mem]
    exact f.performed wf page (s.flag .fault)
  case refresh =>
    obtain ⟨report, mem⟩ := grantReport_refresh item
    obtain ⟨outside, head, tile, last⟩ := PageSnapshot.performed wf page few tiles
    refine ⟨grantReport i s, rfl, onlyIn_grantReport i s, report, ?_⟩
    rw [mem]
    exact ⟨outside, fun first => (head first).trans g.head_eq,
      fun j r low high small there => (tile j r low high small there).trans r.bytes_eq, last⟩

end Sys2Proof.Machine
end

section
/-! How entries leave the look-ahead queue (R41, R44, R65, R73, R74), and the writes that wait for a place (R52, R73,
R79). -/

set_option Elab.async false

namespace Sys2Proof.Machine

/-! ## An entry that stays hears of those that left (R65) -/

/-- The records that left drop out of the entry's wait, and its target is fixed when it then waits for nothing (R65). -/
def Entry.hears (gone : List Nat) (s : State) (e : Entry) : Entry :=
  let e' := { e with clockAhead := e.clockAhead.filter (fun r => !gone.contains r) }
  if e'.readyToFix s.now then e'.fixTarget s else e'

theorem Entry.readyToFix_iff (n : Nat) (e : Entry) :
    e.readyToFix n = true ↔ e.cue.mode = .atTime ∧ e.target = none ∧ e.departing = none ∧ e.clockAhead = [] ∧
      ∀ f, e.clockFrame = some f → f ≤ n := by
  cases frame : e.clockFrame <;> simp [Entry.readyToFix, frame, and_assoc]

/-- An entry hears of its wait the same in states of one profile, frame and clock. -/
theorem Entry.hears_congr {s t : State} (prof : t.prof = s.prof) (now : t.now = s.now)
    (clock : t.ftg.clock = s.ftg.clock) (gone : List Nat) (e : Entry) : e.hears gone t = e.hears gone s := by
  simp only [Entry.hears, Entry.fixTarget, prof, now, clock]

theorem Entry.hears_rest (gone : List Nat) (s : State) (e : Entry) :
    (e.hears gone s).cue = e.cue ∧ (e.hears gone s).departing = e.departing ∧
    (e.hears gone s).eventFrame = e.eventFrame ∧ (e.hears gone s).slackUsed = e.slackUsed ∧
    (e.hears gone s).attemptable = e.attemptable ∧ (e.hears gone s).clockFrame = e.clockFrame ∧
    (e.hears gone s).clockAhead = e.clockAhead.filter (fun r => !gone.contains r) := by
  unfold Entry.hears
  dsimp only
  split <;> exact ⟨rfl, rfl, rfl, rfl, rfl, rfl, rfl⟩

theorem followerOnLeave_scheduler (s : State) : (followerOnLeave s).scheduler = s.scheduler :=
  (onlyIn_followerOnLeave s).scheduler

/-- The queue once the entry of a record has left it. -/
theorem leaveQueue_queue (record : Nat) (s : State) :
    (leaveQueue record s).scheduler.queue =
      (s.scheduler.queue.filter (fun e => e.cue.record != record)).map (Entry.hears [record] s) := by
  have drop (e : Entry) : e.clockAhead.filter (· != record) = e.clockAhead.filter (fun r => !([record].contains r)) :=
    List.filter_congr fun r _ => by rw [Bool.eq_iff_iff]; simp
  rw [leaveQueue, followerOnLeave_scheduler]
  simp only [fixTargets, mapQueue, State.setScheduler_scheduler, List.map_map, drop]
  rfl

/-- What is left to wait for, as R65 names it. -/
theorem clocksGone_hears {gone : List Nat} {visible : Option Nat} {s : State} {e d : Entry}
    (changed : d = { e with clockFrame := d.clockFrame })
    (frame : (∀ v, visible = some v → (∃ r ∈ gone, r ∈ e.clockAhead) →
        d.clockFrame = some (match e.clockFrame with | none => v | some f => max f v)) ∧
      ((visible = none ∨ ¬ ∃ r ∈ gone, r ∈ e.clockAhead) → d.clockFrame = e.clockFrame)) :
    ClocksGone gone visible s e (d.hears gone s) := by
  set d' : Entry := { d with clockAhead := d.clockAhead.filter (fun r => !gone.contains r) } with hd'
  have ahead : d'.clockAhead = e.clockAhead.filter (fun r => !gone.contains r) := by rw [hd', changed]
  have cue : d'.cue = e.cue := by rw [hd', changed]
  have target : d'.target = e.target := by rw [hd', changed]
  have late : d'.late = e.late := by rw [hd', changed]
  have departing : d'.departing = e.departing := by rw [hd', changed]
  have frame' : d'.clockFrame = d.clockFrame := rfl
  have waits : ¬ (d'.clockAhead ≠ [] ∨ ∃ f, d'.clockFrame = some f ∧ s.now < f) ↔
      d'.clockAhead = [] ∧ ∀ f, d'.clockFrame = some f → f ≤ s.now := by
    push Not
    rfl
  have ready : d'.readyToFix s.now = true ↔
      (e.cue.mode = .atTime ∧ e.target = none ∧ e.departing = none) ∧
        ¬ (d'.clockAhead ≠ [] ∨ ∃ f, d'.clockFrame = some f ∧ s.now < f) := by
    rw [Entry.readyToFix_iff, waits, cue, target, departing]
    tauto
  have heard : d.hears gone s = if d'.readyToFix s.now then d'.fixTarget s else d' := rfl
  unfold ClocksGone
  dsimp only
  by_cases h : d'.readyToFix s.now = true
  · obtain ⟨unfixed, quiet⟩ := ready.1 h
    rw [heard, if_pos h]
    rw [ahead, frame'] at quiet
    refine ⟨ahead, frame.1, frame.2, fun _ _ => ⟨by rw [← cue]; rfl, by rw [← cue]; rfl⟩, fun other => ?_, ?_⟩
    · exact absurd other (not_or.2 ⟨not_not.2 unfixed, quiet⟩)
    · show { d' with target := _, late := _ } = _
      rw [hd', changed]
      rfl
  · rw [heard, if_neg h]
    refine ⟨ahead, frame.1, frame.2, fun unfixed quiet => ?_, fun _ => ⟨target, late⟩, ?_⟩
    · refine absurd (ready.2 ⟨unfixed, ?_⟩) h
      rw [ahead, frame']
      exact quiet
    · rw [hd', changed]

theorem clocksGone_hears_none (gone : List Nat) (s : State) (e : Entry) : ClocksGone gone none s e (e.hears gone s) :=
  clocksGone_hears rfl ⟨fun v h => absurd h (by simp), fun _ => rfl⟩

theorem ClocksGone.congr {gone : List Nat} {visible : Option Nat} {s t : State} {e x : Entry} (prof : t.prof = s.prof)
    (now : t.now = s.now) (clock : t.ftg.clock = s.ftg.clock) (h : ClocksGone gone visible t e x) :
    ClocksGone gone visible s e x := by
  unfold ClocksGone at h ⊢
  rwa [prof, now, clock] at h

theorem forall₂_self_map {α β : Type} {R : α → β → Prop} {f : α → β} (h : ∀ a, R a (f a)) (l : List α) :
    List.Forall₂ R l (l.map f) := by
  rw [List.forall₂_map_right_iff]
  exact List.forall₂_same.2 fun a _ => h a

/-- An entry that leaves the queue without a commit, its write among those of the queue. -/
theorem entryLeft_leaveQueue {record : Nat} {s t : State} (only : OnlyIn [.report, .commit, .follower] s t) :
    EntryLeft record none s (leaveQueue record t) := by
  rw [EntryLeft, leaveQueue_queue, only.scheduler]
  refine forall₂_self_map (fun e => ?_) _
  exact (clocksGone_hears_none [record] t e).congr only.prof only.now (congrArg Ftg.clock only.ftg)

/-! ## The Chain Follower and DRY (R41, R44) -/

theorem followerOnLeave_of_full {s : State} (h : s.follower.state = .full) :
    followerOnLeave s = s.setFollower { s.follower with state := .fetching } := by
  unfold followerOnLeave
  rw [h]

theorem followerOnLeave_of_free {s : State} (h : s.follower.state = .waitReuse)
    (free : s.recordInUse s.follower.follow = false) :
    followerOnLeave s = s.setFollower { s.follower with state := .fetching } := by
  unfold followerOnLeave
  rw [h]
  simp [free]

theorem followerOnLeave_of_used {s : State} (h : s.follower.state = .waitReuse)
    (used : s.recordInUse s.follower.follow = true) : followerOnLeave s = s := by
  unfold followerOnLeave
  rw [h]
  simp [used]

theorem followerOnLeave_of_other {s : State} (h : s.follower.state ≠ .full) (h' : s.follower.state ≠ .waitReuse) :
    followerOnLeave s = s := by
  unfold followerOnLeave
  cases state : s.follower.state with
  | full => exact absurd state h
  | waitReuse => exact absurd state h'
  | idle => rfl
  | fetching => rfl
  | awaitLink => rfl
  | hold => rfl

/-- `t`, whose follower is that of `s`, with the follower told of an entry that left. -/
theorem followerTold_followerOnLeave {s t : State} (same : t.follower = s.follower) :
    FollowerTold s (followerOnLeave t) := by
  have rest := onlyIn_followerOnLeave t
  have inUse := t.recordInUse_iff s.follower.follow
  unfold FollowerTold
  dsimp only
  rw [rest.scheduler, rest.report, rest.commit, ← inUse]
  by_cases full : s.follower.state = .full
  · rw [followerOnLeave_of_full (by rw [same]; exact full)]
    exact ⟨fun _ => by rw [← same]; rfl, fun h => absurd full h⟩
  · by_cases reuse : s.follower.state = .waitReuse
    · cases used : t.recordInUse s.follower.follow with
      | true =>
        rw [followerOnLeave_of_used (by rw [same]; exact reuse) (by rw [same]; exact used)]
        exact ⟨fun h => absurd h (by simp [full]), fun _ _ => same⟩
      | false =>
        rw [followerOnLeave_of_free (by rw [same]; exact reuse) (by rw [same]; exact used)]
        exact ⟨fun _ => by rw [← same]; rfl, fun _ h => absurd (h reuse) (by simp)⟩
    · rw [followerOnLeave_of_other (by rw [same]; exact full) (by rw [same]; exact reuse)]
      exact ⟨fun h => absurd h (by simp [full, reuse]), fun _ _ => same⟩

theorem followerTold_leaveQueue {record : Nat} {s t : State} (same : t.follower = s.follower) :
    FollowerTold s (leaveQueue record t) :=
  followerTold_followerOnLeave (t := fixTargets (t.setScheduler _)) same

theorem FollowerTold.congr {s t u : State} (h : FollowerTold s t) (only : OnlyIn [.window] t u) : FollowerTold s u := by
  unfold FollowerTold at h ⊢
  rwa [only.scheduler, only.report, only.commit, only.follower]

/-- A follower told of entries that left stays in AWAIT_LINK, and does not come to it. -/
theorem FollowerTold.awaitLink_iff {s t : State} (h : FollowerTold s t) :
    t.follower.state = .awaitLink ↔ s.follower.state = .awaitLink := by
  obtain ⟨leaves, stays⟩ := h
  by_cases full : s.follower.state = .full
  · rw [leaves (.inl full), full]
    simp
  · by_cases reuse : s.follower.state = .waitReuse
    · by_cases used : (∃ e ∈ t.scheduler.queue, e.cue.record = s.follower.follow) ∨
        (∃ k g, QueueItem.outcome ⟨s.follower.follow, k⟩ g ∈ t.report.queue) ∨
        (∃ w ∈ t.commit.handoff, w.record = s.follower.follow)
      · rw [stays full fun _ => used]
      · rw [leaves (.inr ⟨reuse, used⟩), reuse]
        simp
    · rw [stays full fun h => absurd h reuse]

theorem dryTold_dryEdge {s t : State} (some : s.scheduler.queue ≠ []) (window : t.window = s.window)
    (state : t.follower.state = .awaitLink ↔ s.follower.state = .awaitLink) : DryTold s (dryEdge s t) := by
  have only := onlyIn_dryEdge_after s t
  have before : s.dry = false := by
    rw [State.dry, Bool.and_eq_false_iff]
    exact .inr (by simpa using some)
  unfold DryTold
  rw [only.scheduler]
  refine ⟨fun waits empty => flag_dryEdge before ?_, fun other => ?_⟩
  · simp [State.dry, state.2 waits, empty]
  · rw [dryEdge_of_not_dry, window]
    rw [State.dry, Bool.and_eq_false_iff]
    rcases other with other | other
    · exact .inl (by simpa using fun h => other (state.1 h))
    · exact .inr (by simpa using other)

/-! ## Waiting writes -/

theorem Departure.outcome_eq (d : Departure) : d.outcome = departureWrite d := by cases d <;> rfl

theorem receiveDeparting_eq {s : State} {record : Nat} {d : Departure} (oldest : s.oldestDeparting = some (record, d))
    (room : 0 < s.freePlaces) :
    receiveDeparting s = leaveQueue record (enqueueOutcome record (departureWrite d) s) := by
  simp [receiveDeparting, oldest, room, Departure.outcome_eq]

theorem queue_ne_nil_of_oldestDeparting {s : State} {x : Nat × Departure} (h : s.oldestDeparting = some x) :
    s.scheduler.queue ≠ [] := by
  intro empty
  rw [State.oldestDeparting, empty] at h
  cases h

theorem openPlaces_of_departing {s : State} (h : ∃ e ∈ s.scheduler.queue, e.departing.isSome = true) :
    s.placesForHold = 0 := by
  obtain ⟨e, there, departing⟩ := h
  have : s.departingCount ≠ 0 := fun zero => by
    rw [(s.departingCount_eq_zero).1 zero e there] at departing
    exact absurd departing (by decide)
  rw [State.placesForHold, if_neg this]

theorem placesForHandoff_le (s : State) : s.placesForHandoff ≤ s.placesForHold := by
  unfold State.placesForHandoff
  split
  · exact le_rfl
  · exact Nat.zero_le _

theorem openPlaces_le (s : State) : s.openPlaces ≤ s.placesForHandoff := by
  unfold State.openPlaces
  split
  · exact le_rfl
  · exact Nat.zero_le _

theorem receiveHoldFault_closed {s : State} (h : s.placesForHold = 0) : receiveHoldFault s = s := by
  unfold receiveHoldFault
  split
  · rfl
  · rw [h, if_neg (Nat.lt_irrefl 0)]

theorem receiveHandoff_closed {s : State} (h : s.placesForHandoff = 0) : receiveHandoff s = s := by
  unfold receiveHandoff
  split
  · rfl
  · rw [h, if_neg (Nat.lt_irrefl 0)]

theorem fetchBegin_fetch_of_closed {s : State} (h : s.openPlaces < 2) :
    (fetchBegin s).follower.fetch = s.follower.fetch := by
  unfold fetchBegin
  split
  · rfl
  · split
    · rfl
    · split
      · rfl
      · rfl

/-- Settles O49. -/
theorem waitingWritesAreReceived : Obligations.WaitingWritesAreReceived := by
  refine ⟨fun s record d oldest room => ?departing, fun s f rest waiting still room => ?hold,
    fun s w rest waiting still none room => ?handoff, fun s departing => ?closed, fun s => ⟨fun waiting => ?behindHold,
    fun waiting => if_neg waiting, fun still none empty => ?places⟩⟩
  case departing =>
    have received := receiveDeparting_eq oldest room
    set u := enqueueOutcome record (departureWrite d) s
    have only : OnlyIn [.report] s u := onlyIn_enqueueOutcome _ _ s
    have left := onlyIn_leaveQueue record u
    have dry := onlyIn_dryEdge_after s (receiveDeparting s)
    have told : FollowerTold s (receiveDeparting s) := by
      rw [received]
      exact followerTold_leaveQueue only.follower
    refine ⟨dryEdge s (receiveDeparting s), rfl,
      onlyIn_dryEdge s ((onlyIn_receiveDeparting s).mono (by decide)) (by decide), ?_, ?_, ?_,
      told.congr dry, dryTold_dryEdge (queue_ne_nil_of_oldestDeparting oldest) (onlyIn_receiveDeparting s).window
        told.awaitLink_iff⟩
    · rw [dry.report, received, left.report]
      rfl
    · rw [dry.scheduler, received]
      obtain ⟨f, -, scheduler⟩ := leaveQueue_scheduler record u
      rw [scheduler, only.scheduler]
    · rw [EntryLeft, dry.scheduler, received]
      exact entryLeft_leaveQueue (only.mono (by decide))
  case hold =>
    have open' : 0 < s.placesForHold := (s.placesForHold_pos).2 ⟨(s.departingCount_eq_zero).2 still, room⟩
    refine ⟨receiveHoldFault s, rfl, onlyIn_receiveHoldFault s, ?_⟩
    rw [receiveHoldFault, waiting]
    dsimp only
    rw [if_pos open']
    rfl
  case handoff =>
    have open' : 0 < s.placesForHandoff := (s.placesForHandoff_pos).2
      ⟨none, (s.placesForHold_pos).2 ⟨(s.departingCount_eq_zero).2 still, room⟩⟩
    refine ⟨receiveHandoff s, rfl, onlyIn_receiveHandoff s, ?_⟩
    rw [receiveHandoff, waiting]
    dsimp only
    rw [if_pos open']
    exact ⟨rfl, rfl⟩
  case closed =>
    have hold := openPlaces_of_departing departing
    have handoff : s.placesForHandoff = 0 := Nat.le_zero.1 (hold ▸ placesForHandoff_le s)
    have none : s.openPlaces = 0 := Nat.le_zero.1 (handoff ▸ openPlaces_le s)
    exact ⟨none, congrArg _ (receiveHoldFault_closed hold), congrArg _ (receiveHandoff_closed handoff), fetchBegin s,
      rfl, onlyIn_fetchBegin s, fetchBegin_fetch_of_closed (by rw [none]; decide)⟩
  case behindHold =>
    have handoff : s.placesForHandoff = 0 := if_neg waiting
    exact ⟨Nat.le_zero.1 (handoff ▸ openPlaces_le s), congrArg _ (receiveHandoff_closed handoff)⟩
  case places =>
    rw [State.openPlaces, if_pos empty, State.placesForHandoff, if_pos none, State.placesForHold,
      if_pos ((s.departingCount_eq_zero).2 still)]
    rfl

end Sys2Proof.Machine
end

section
/-! What the look-ahead queue's entries become as others leave it (R65, R73, R74), over the drains and a frame start's run
of attempts. -/

set_option Elab.async false

namespace Sys2Proof.Machine

/-! ## An entry that stays -/

/-- The entry `e` has become `x` while others left the queue: its cue and departure stand, its wait for CLOCK cues only
shrinks, and its target is fixed at most once, from the given clock (R65). -/
structure Entry.Ages (p : Profile) (n : Nat) (clock : Clock) (e x : Entry) : Prop where
  cue : x.cue = e.cue
  departing : x.departing = e.departing
  event : x.eventFrame = e.eventFrame
  slack : x.slackUsed = e.slackUsed
  ahead : x.clockAhead.Sublist e.clockAhead
  frame : e.clockAhead = [] → x.clockFrame = e.clockFrame
  target : (x.target = e.target ∧ x.late = e.late) ∨
    (e.cue.mode = .atTime ∧ e.target = none ∧
      (e.clockAhead = [] → ∀ f, e.clockFrame = some f → f ≤ n) ∧
      x.target = some (atTarget p n clock e.cue.atTime).1 ∧ x.late = (atTarget p n clock e.cue.atTime).2)

section
variable {p : Profile} {n : Nat} {clock : Clock} {a b c e x : Entry}

theorem Entry.Ages.refl (e : Entry) : e.Ages p n clock e :=
  ⟨rfl, rfl, rfl, rfl, .refl _, fun _ => rfl, .inl ⟨rfl, rfl⟩⟩

theorem Entry.Ages.trans (h : a.Ages p n clock b) (g : b.Ages p n clock c) : a.Ages p n clock c where
  cue := g.cue.trans h.cue
  departing := g.departing.trans h.departing
  event := g.event.trans h.event
  slack := g.slack.trans h.slack
  ahead := g.ahead.trans h.ahead
  frame empty := by
    have empty' : b.clockAhead = [] := List.sublist_nil.1 (empty ▸ h.ahead)
    rw [g.frame empty', h.frame empty]
  target := by
    rcases g.target with ⟨target, late⟩ | ⟨mode, unfixed, due, target, late⟩
    · rw [target, late]
      exact h.target
    · rcases h.target with ⟨target', late'⟩ | ⟨-, -, -, target', -⟩
      · refine .inr ⟨h.cue ▸ mode, target' ▸ unfixed, fun empty => ?_, ?_, ?_⟩
        · have empty' : b.clockAhead = [] := List.sublist_nil.1 (empty ▸ h.ahead)
          rw [← h.frame empty]
          exact due empty'
        · rw [target, h.cue]
        · rw [late, h.cue]
      · rw [target'] at unfixed
        cases unfixed

theorem Entry.ages_hears {s : State} (gone : List Nat) (e : Entry) :
    e.Ages s.prof s.now s.ftg.clock (e.hears gone s) := by
  obtain ⟨cue, departing, event, slack, -, frame, ahead⟩ := e.hears_rest gone s
  refine ⟨cue, departing, event, slack, ?_, fun _ => frame, ?_⟩
  · rw [ahead]
    exact List.filter_sublist
  · unfold Entry.hears
    dsimp only
    split
    · next ready =>
      obtain ⟨mode, unfixed, -, -, due⟩ := (Entry.readyToFix_iff _ _).1 ready
      exact .inr ⟨mode, unfixed, fun _ => due, rfl, rfl⟩
    · exact .inl ⟨rfl, rfl⟩

/-- An entry that waits for a CLOCK cue learns the frame it commits with (R65). -/
def Entry.promised (record visible : Nat) (e : Entry) : Entry :=
  if e.clockAhead.contains record then { e with clockFrame := some (max (e.clockFrame.getD 0) visible) } else e

theorem Entry.ages_promised (record visible : Nat) (e : Entry) : e.Ages p n clock (e.promised record visible) := by
  unfold Entry.promised
  split
  · next waits =>
    refine ⟨rfl, rfl, rfl, rfl, .refl _, fun empty => ?_, .inl ⟨rfl, rfl⟩⟩
    rw [empty] at waits
    cases waits
  · exact .refl e

theorem Entry.ages_attemptable (b : Bool) (e : Entry) : e.Ages p n clock { e with attemptable := b } :=
  ⟨rfl, rfl, rfl, rfl, .refl _, fun _ => rfl, .inl ⟨rfl, rfl⟩⟩

end

/-! ## The queue while entries leave it -/

/-- From `s` to `t` entries have only left the queue, and those that `stay` names have not; the clock stands. -/
structure QueueRuns (stay : Entry → Prop) (s t : State) : Prop where
  prof : t.prof = s.prof
  now : t.now = s.now
  clock : t.ftg.clock = s.ftg.clock
  ages : List.SublistForall₂ (fun x e => e.Ages s.prof s.now s.ftg.clock x) t.scheduler.queue s.scheduler.queue
  stays : (s.scheduler.queue.map (·.cue.record)).Nodup → ∀ e ∈ s.scheduler.queue, stay e →
    ∃ x ∈ t.scheduler.queue, e.Ages s.prof s.now s.ftg.clock x

section
variable {stay : Entry → Prop} {s t u : State}

theorem sublistForall₂_map {α β : Type} {R : β → α → Prop} {f : α → β} (h : ∀ a, R (f a) a) {l m : List α}
    (sub : l.Sublist m) : List.SublistForall₂ R (l.map f) m :=
  List.sublistForall₂_iff.2 ⟨l, List.forall₂_map_left_iff.2 (List.forall₂_same.2 fun a _ => h a), sub⟩

theorem QueueRuns.of_queue (prof : t.prof = s.prof) (now : t.now = s.now) (clock : t.ftg.clock = s.ftg.clock)
    (queue : t.scheduler.queue = s.scheduler.queue) : QueueRuns stay s t where
  prof := prof
  now := now
  clock := clock
  ages := by
    rw [queue]
    have := sublistForall₂_map (R := fun x e : Entry => e.Ages s.prof s.now s.ftg.clock x) (f := id)
      Entry.Ages.refl (List.Sublist.refl s.scheduler.queue)
    rwa [List.map_id] at this
  stays _ e there _ := ⟨e, queue ▸ there, .refl e⟩

theorem OnlyIn.queueRuns {ps : List Part} (h : OnlyIn ps s t) (hp : Part.profile ∉ ps := by decide)
    (hf : Part.ftg ∉ ps := by decide) (hs : Part.scheduler ∉ ps := by decide) : QueueRuns stay s t :=
  .of_queue (h.prof hp) (h.now hf) (congrArg Ftg.clock (h.ftg hf)) (congrArg Scheduler.queue (h.scheduler hs))

theorem QueueRuns.refl (s : State) : QueueRuns stay s s := .of_queue rfl rfl rfl rfl

theorem QueueRuns.mem (h : QueueRuns stay s t) {x : Entry} (there : x ∈ t.scheduler.queue) :
    ∃ e ∈ s.scheduler.queue, e.Ages s.prof s.now s.ftg.clock x := by
  obtain ⟨l, aged, sub⟩ := List.sublistForall₂_iff.1 h.ages
  obtain ⟨i, at_i⟩ := List.getElem?_of_mem there
  obtain ⟨length, rel⟩ := List.forall₂_iff_get.1 aged
  obtain ⟨small, rfl⟩ := List.getElem?_eq_some_iff.1 at_i
  exact ⟨l[i]'(length ▸ small), sub.subset (List.getElem_mem _), rel i small (length ▸ small)⟩

/-- The records that are left, in their order. -/
theorem QueueRuns.records (h : QueueRuns stay s t) :
    (t.scheduler.queue.map (·.cue.record)).Sublist (s.scheduler.queue.map (·.cue.record)) := by
  obtain ⟨l, aged, sub⟩ := List.sublistForall₂_iff.1 h.ages
  have same : t.scheduler.queue.map (·.cue.record) = l.map (·.cue.record) := by
    refine List.forall₂_eq_eq_eq ▸ (List.forall₂_map_left_iff.2 (List.forall₂_map_right_iff.2 ?_))
    exact aged.imp fun _ _ age => congrArg Cue.record age.cue
  rw [same]
  exact sub.map _

theorem QueueRuns.trans (h : QueueRuns stay s t) (g : QueueRuns stay t u)
    (keep : ∀ e x : Entry, e.Ages s.prof s.now s.ftg.clock x → stay e → stay x) : QueueRuns stay s u where
  prof := g.prof.trans h.prof
  now := g.now.trans h.now
  clock := g.clock.trans h.clock
  ages := by
    have later := g.ages
    rw [h.prof, h.now, h.clock] at later
    have : IsTrans Entry (fun x e => e.Ages s.prof s.now s.ftg.clock x) := ⟨fun _ _ _ f g => g.trans f⟩
    exact (List.SublistForall₂.is_trans (Rₐ := fun x e : Entry => e.Ages s.prof s.now s.ftg.clock x)).trans _ _ _
      later h.ages
  stays distinct e there stays := by
    obtain ⟨x, here, age⟩ := h.stays distinct e there stays
    obtain ⟨y, last, age'⟩ := g.stays (distinct.sublist h.records) x here (keep e x age stays)
    rw [h.prof, h.now, h.clock] at age'
    exact ⟨y, last, age.trans age'⟩

end

theorem eq_of_record_eq {l : List Entry} (distinct : (l.map (·.cue.record)).Nodup) {e x : Entry} (he : e ∈ l)
    (hx : x ∈ l) (h : e.cue.record = x.cue.record) : e = x := List.inj_on_of_nodup_map distinct he hx h

/-! ## Entries that leave departing -/

/-- The entry of a record leaves the queue. -/
theorem queueRuns_leaveQueue {stay : Entry → Prop} {record : Nat} {s : State}
    (goes : (s.scheduler.queue.map (·.cue.record)).Nodup → ∀ e ∈ s.scheduler.queue, e.cue.record = record → ¬ stay e) :
    QueueRuns stay s (leaveQueue record s) where
  prof := (onlyIn_leaveQueue record s).prof
  now := (onlyIn_leaveQueue record s).now
  clock := congrArg Ftg.clock (onlyIn_leaveQueue record s).ftg
  ages := by
    rw [leaveQueue_queue]
    exact sublistForall₂_map (Entry.ages_hears [record]) List.filter_sublist
  stays distinct e there stays := by
    rw [leaveQueue_queue]
    have other : e.cue.record ≠ record := fun h => goes distinct e there h stays
    exact ⟨e.hears [record] s, List.mem_map_of_mem (List.mem_filter.2 ⟨there, by simpa using other⟩), e.ages_hears _⟩

theorem mem_of_oldestDeparting {s : State} {record : Nat} {d : Departure} (h : s.oldestDeparting = some (record, d)) :
    ∃ e ∈ s.scheduler.queue, e.cue.record = record ∧ e.departing = some d := by
  obtain ⟨e, there, found⟩ := List.exists_of_findSome?_eq_some h
  obtain ⟨d', departing, pair⟩ := Option.map_eq_some_iff.1 found
  obtain ⟨rfl, rfl⟩ := Prod.mk.inj pair
  exact ⟨e, there, rfl, departing⟩

/-- Of the departing entries the oldest alone leaves; the others stay. -/
theorem queueRuns_receiveDeparting (s : State) :
    QueueRuns (fun e => e.departing = none) s (receiveDeparting s) := by
  rcases receiveDeparting_cases s with h | ⟨record, d, oldest, -, h⟩
  · rw [h]
    exact .refl s
  · rw [h]
    refine ((onlyIn_enqueueOutcome record d.outcome s).queueRuns).trans (queueRuns_leaveQueue ?_)
      fun e x age h => age.departing.trans h
    intro distinct e there record
    obtain ⟨x, here, record', departing⟩ := mem_of_oldestDeparting oldest
    obtain rfl := eq_of_record_eq distinct there here (record.trans record'.symm)
    rw [departing]
    simp

theorem queueRuns_drainDeparting (n : Nat) (s : State) :
    QueueRuns (fun e => e.departing = none) s (drainDeparting n s) := by
  induction n generalizing s with
  | zero => exact .refl s
  | succ n ih => exact (queueRuns_receiveDeparting s).trans (ih _) fun e x age h => age.departing.trans h

theorem queueRuns_fixTargets {stay : Entry → Prop} (s : State) : QueueRuns stay s (fixTargets s) := by
  have fix (e : Entry) : (if e.readyToFix s.now then e.fixTarget s else e) = e.hears [] s := by
    simp [Entry.hears]
  have queue : (fixTargets s).scheduler.queue = s.scheduler.queue.map (Entry.hears [] s) :=
    List.map_congr_left fun e _ => fix e
  refine ⟨(onlyIn_fixTargets s).prof, (onlyIn_fixTargets s).now, congrArg Ftg.clock (onlyIn_fixTargets s).ftg, ?_,
    fun _ e there _ => ⟨e.hears [] s, ?_, e.ages_hears []⟩⟩
  · rw [queue]
    exact sublistForall₂_map (Entry.ages_hears []) (.refl _)
  · rw [queue]
    exact List.mem_map_of_mem there

theorem queueRuns_markAttemptable {stay : Entry → Prop} (s : State) : QueueRuns stay s (markAttemptable s) :=
  ⟨rfl, rfl, rfl, sublistForall₂_map (Entry.ages_attemptable true) (.refl _),
    fun _ e there _ => ⟨_, List.mem_map_of_mem there, e.ages_attemptable true⟩⟩

/-! ## A cue of another kind commits (R65, R88) -/

theorem foldl_placeSwitch_only {α : Type} (on : α → Nat) (body : α → SwitchBody) (visible : Nat) (l : List α)
    (s : State) : OnlyIn [.tiles] s (l.foldl (fun u x => placeSwitch (on x) visible (body x) u) s) :=
  onlyIn_foldl _ (fun u x => onlyIn_placeSwitch (on x) visible (body x) u) l s

/-- What a committing cue does to an entry of the queue before its own leaves. -/
def Cue.tells (c : Cue) (visible : Nat) (e : Entry) : Entry :=
  if c.body.isClock then e.promised c.record visible else e

theorem placeDue_queue (c : Cue) (visible : Nat) (s : State) :
    (placeDue c visible s).scheduler = { s.scheduler with queue := s.scheduler.queue.map (c.tells visible) } := by
  have other (h : c.body.isClock = false) : s.scheduler.queue.map (c.tells visible) = s.scheduler.queue := by
    conv_rhs => rw [← List.map_id s.scheduler.queue]
    exact List.map_congr_left fun e _ => by simp [Cue.tells, h]
  unfold placeDue
  split
  · next body => rw [other (by rw [body]; rfl), (foldl_placeSwitch_only _ _ _ _ s).scheduler]
  · next body =>
    simp only [clockCommitted, mapQueue, State.setFtg_scheduler, State.setScheduler_scheduler]
    congr 1
    exact List.map_congr_left fun e _ => by simp [Cue.tells, body, CueBody.isClock, Entry.promised]
  · next body => rw [other (by rw [body]; rfl)]
  · next body => rw [other (by rw [body]; rfl)]

theorem placeDue_clock (c : Cue) (visible : Nat) (s : State) :
    ∃ sets, (placeDue c visible s).ftg = { s.ftg with clockSets := sets } := by
  unfold placeDue
  split
  · exact ⟨s.ftg.clockSets, (foldl_placeSwitch_only _ _ _ _ s).ftg⟩
  · exact ⟨_, rfl⟩
  · exact ⟨_, rfl⟩
  · exact ⟨_, rfl⟩

/-- The queue once a cue that is not a scene has committed. -/
theorem commitDue_queue (v : Eval) (visible : Nat) (s : State) :
    (commitDue v visible s).scheduler.queue =
      (s.scheduler.queue.filter (fun e => e.cue.record != v.entry.cue.record)).map
        (fun e => (v.entry.cue.tells visible e).hears [v.entry.cue.record] s) := by
  set c := v.entry.cue with hc
  set u := placeDue c visible (joinDue v visible s) with hu
  have queue : u.scheduler.queue = s.scheduler.queue.map (c.tells visible) := by
    rw [hu, placeDue_queue]
    rfl
  obtain ⟨sets, ftg⟩ := placeDue_clock c visible (joinDue v visible s)
  have prof : u.prof = s.prof := (onlyIn_placeDue c visible (joinDue v visible s)).prof
  have now : u.now = s.now := (congrArg Ftg.frame ftg).trans rfl
  have clock : u.ftg.clock = s.ftg.clock := (congrArg Ftg.clock ftg).trans rfl
  have told (e : Entry) : (c.tells visible e).cue = e.cue := by
    unfold Cue.tells Entry.promised
    split
    · split <;> rfl
    · rfl
  rw [commitDue_eq, leaveCommitted, leaveQueue_queue]
  simp only [State.setScheduler_scheduler]
  rw [← hc, ← hu, queue, List.filter_map, List.map_map]
  have same : (fun e : Entry => e.cue.record != c.record) ∘ c.tells visible = fun e => e.cue.record != c.record := by
    funext e
    simp only [Function.comp_apply, told]
  rw [same]
  refine List.map_congr_left fun e _ => ?_
  exact Entry.hears_congr (t := u.setScheduler { u.scheduler with lastFrame := some visible }) prof now clock _ _

theorem Entry.ages_tells {p : Profile} {n : Nat} {clock : Clock} (c : Cue) (visible : Nat) (e : Entry) :
    e.Ages p n clock (c.tells visible e) := by
  unfold Cue.tells
  split
  · exact e.ages_promised _ _
  · exact .refl e

/-- An entry that the run of attempts leaves in the queue: a scene, one that is departing, or an AT cue still waiting for
its last CLOCK cue. -/
def OutlastsRun (n : Nat) (e : Entry) : Prop :=
  e.cue.body.isScene = true ∨ e.departing ≠ none ∨
    (e.cue.mode = .atTime ∧ e.target = none ∧ e.clockAhead = [] ∧ ∃ f, e.clockFrame = some f ∧ n < f)

theorem OutlastsRun.ages {p : Profile} {n : Nat} {clock : Clock} {e x : Entry} (h : OutlastsRun n e)
    (age : e.Ages p n clock x) : OutlastsRun n x := by
  rcases h with scene | departing | ⟨mode, unfixed, empty, f, frame, later⟩
  · exact .inl (age.cue ▸ scene)
  · exact .inr (.inl (age.departing ▸ departing))
  · refine .inr <| .inr ⟨age.cue ▸ mode, ?_, List.sublist_nil.1 (empty ▸ age.ahead), f, (age.frame empty).trans frame, later⟩
    rcases age.target with ⟨target, -⟩ | ⟨-, -, due, -⟩
    · rw [target, unfixed]
    · exact absurd (due empty f frame) (Nat.not_le.2 later)

theorem vEff_atTime_fixed {s : State} {v : Eval} {n : Nat} (there : v ∈ s.evals) (resolved : v.vEff = some n)
    (mode : v.entry.cue.mode = .atTime) : v.entry.target ≠ none := by
  have from_entry {floor : Nat} {l : List Entry} {a : Ahead} (h : v ∈ evalFrom floor a l) :
      ∃ a e, v = evalEntry floor a e := by
    induction l generalizing a with
    | nil => cases h
    | cons e rest ih =>
      rcases List.mem_cons.1 h with rfl | h
      · exact ⟨a, e, rfl⟩
      · exact ih h
  obtain ⟨a, e, rfl⟩ := from_entry there
  intro unfixed
  have unresolved : e.derived a.ref = none := by
    have mode' : e.cue.mode = .atTime := mode
    simp only [Entry.derived, mode']
    exact unfixed
  simp [evalEntry, unresolved] at resolved

theorem Due.mem {s : State} {v : Eval} (h : Due s v) : v ∈ s.evals := List.mem_of_mem_head? (h.1 ▸ rfl)

theorem queueRuns_commitDue {v : Eval} {s : State} (due : Due s v) (other : v.entry.cue.body.isScene = false) :
    QueueRuns (OutlastsRun s.now) s (commitDue v (s.now + s.horizon) s) := by
  obtain ⟨sets, ftg⟩ := commitDue_ftg v (s.now + s.horizon) s
  refine ⟨(onlyIn_commitDue v _ s).prof, (congrArg Ftg.frame ftg).trans rfl, (congrArg Ftg.clock ftg).trans rfl, ?_,
    fun distinct e there stays => ?_⟩
  · rw [commitDue_queue]
    exact sublistForall₂_map (fun e => (e.ages_tells _ _).trans (Entry.ages_hears _ _)) List.filter_sublist
  · rw [commitDue_queue]
    have ne : e.cue.record ≠ v.entry.cue.record := by
      intro same
      obtain ⟨here, undeparted⟩ := mem_evals_entry due.mem
      obtain rfl := eq_of_record_eq distinct there here same
      rcases stays with scene | departing | ⟨mode, unfixed, -⟩
      · rw [other] at scene
        cases scene
      · exact departing undeparted
      · exact vEff_atTime_fixed due.mem due.2.2 mode unfixed
    exact ⟨_, List.mem_map_of_mem (List.mem_filter.2 ⟨there, by simpa using ne⟩),
      (e.ages_tells _ _).trans (Entry.ages_hears _ _)⟩

theorem queueRuns_move {s t : State} (h : RunMove s t) : QueueRuns (OutlastsRun s.now) s t := by
  cases h with
  | attempts => exact (onlyIn_setCommit s _).queueRuns
  | commits due _ _ other => exact queueRuns_commitDue ((dueEval_eq_some s _).1 due) other

theorem queueRuns_attemptRun (n : Nat) (s : State) : QueueRuns (OutlastsRun s.now) s (attemptRun n s) := by
  refine attemptRun_induction (R := fun s t => QueueRuns (OutlastsRun s.now) s t) (fun s => .refl s) ?_ queueRuns_move n s
  intro s t u h g
  rw [h.now] at g
  exact h.trans g fun e x age h => h.ages age

end Sys2Proof.Machine
end

section
/-! Commit attempts (R78 to R88): how an attempt's decision takes its entry out of the queue, and the run goes on. -/

set_option Elab.async false

namespace Sys2Proof.Machine

/-! ## The Chain Follower through the run (R41) -/

/-- No record comes into use that was not. -/
def UsesOnly (s t : State) : Prop := ∀ r, t.recordInUse r = true → s.recordInUse r = true

theorem UsesOnly.of_queue {s t : State} (records : t.scheduler.queue.map (·.cue.record) ⊆ s.scheduler.queue.map (·.cue.record))
    (report : t.report = s.report) (handoff : t.commit.handoff = s.commit.handoff) : UsesOnly s t := by
  intro r
  rw [State.recordInUse_iff, State.recordInUse_iff, report, handoff]
  rintro (⟨e, there, rfl⟩ | rest)
  · obtain ⟨x, here, same⟩ := List.mem_map.1 (records (List.mem_map_of_mem there))
    exact .inl ⟨x, here, same⟩
  · exact .inr rest

theorem followerTold_iff (s t : State) : FollowerTold s t ↔
    (s.follower.state = .full ∨ s.follower.state = .waitReuse ∧ t.recordInUse s.follower.follow = false →
      t.follower = { s.follower with state := .fetching }) ∧
    (s.follower.state ≠ .full → (s.follower.state = .waitReuse → t.recordInUse s.follower.follow = true) →
      t.follower = s.follower) := by
  have inUse := t.recordInUse_iff s.follower.follow
  unfold FollowerTold
  dsimp only
  rw [← inUse, Bool.not_eq_true]

theorem FollowerTold.trans {s t u : State} (h : FollowerTold s t) (g : FollowerTold t u) (uses : UsesOnly t u) :
    FollowerTold s u := by
  rw [followerTold_iff] at h g ⊢
  obtain ⟨leaves, stays⟩ := h
  obtain ⟨leaves', stays'⟩ := g
  have fetching (h : t.follower = { s.follower with state := .fetching }) : u.follower = t.follower :=
    stays' (by rw [h]; exact fun f => nomatch f) fun reuse => by rw [h] at reuse; cases reuse
  by_cases full : s.follower.state = .full
  · have told := leaves (.inl full)
    exact ⟨fun _ => (fetching told).trans told, fun h => absurd full h⟩
  by_cases reuse : s.follower.state = .waitReuse
  · cases used : t.recordInUse s.follower.follow with
    | false =>
      have told := leaves (.inr ⟨reuse, used⟩)
      refine ⟨fun _ => (fetching told).trans told, fun _ h => ?_⟩
      rw [uses _ (h reuse)] at used
      cases used
    | true =>
      have told := stays full fun _ => used
      rw [told] at leaves' stays'
      exact ⟨leaves', stays'⟩
  · have told := stays full fun h => absurd h reuse
    rw [told] at leaves' stays'
    exact ⟨leaves', stays'⟩

theorem FollowerTold.attemptRun {s t : State} (h : FollowerTold s t) (n : Nat) : FollowerTold s (attemptRun n t) := by
  refine attemptRun_induction (R := fun t u => FollowerTold s t → FollowerTold s u) (fun _ h => h)
    (fun f g h => g (f h)) ?_ n t h
  intro t u move told
  have uses : UsesOnly t u := by
    refine .of_queue (queueRuns_move move).records.subset ?_ ?_
    · cases move with
      | attempts => rfl
      | commits => exact (onlyIn_commitDue _ _ t).report
    · rw [(runKeeps_move move).commit]
  cases move with
  | attempts => exact told
  | commits =>
    refine told.trans ?_ uses
    rw [commitDue_eq]
    exact followerTold_leaveQueue (onlyIn_placeDue _ _ _).follower

/-! ## An attempt's entry leaves, and the run goes on -/

/-- `w` is `s` with the attempt over and an entry about to leave. -/
structure AboutToLeave (s w : State) : Prop where
  queue : w.scheduler.queue = s.scheduler.queue
  prof : w.prof = s.prof
  now : w.now = s.now
  clock : w.ftg.clock = s.ftg.clock
  follower : w.follower = s.follower
  window : w.window = s.window
  ended : w.commit.attempt = none

theorem attemptLeaves {record : Nat} {s w : State} (about : AboutToLeave s w)
    (there : ∃ e ∈ s.scheduler.queue, e.cue.record = record) :
    AttemptLeaves record s (dryEdge s (attemptRun (s.scheduler.queue.length + 1) (leaveQueue record w))) := by
  set u := leaveQueue record w with hu
  set t := attemptRun (s.scheduler.queue.length + 1) u with ht
  have left := onlyIn_leaveQueue record w
  have ran := onlyIn_attemptRun (s.scheduler.queue.length + 1) u
  have dry := onlyIn_dryEdge_after s t
  have told : FollowerTold s t := (followerTold_leaveQueue about.follower).attemptRun _
  have some : s.scheduler.queue ≠ [] := by
    obtain ⟨e, here, -⟩ := there
    exact List.ne_nil_of_mem here
  refine ⟨told.congr dry, dryTold_dryEdge some ?_ told.awaitLink_iff, ?_, u, ?_, ?_, rfl⟩
  · rw [ran.window, left.window, about.window]
  · intro e here
    rw [dry.scheduler] at here
    have kept := (queueRuns_attemptRun (s.scheduler.queue.length + 1) u).records.subset
      (List.mem_map_of_mem (f := fun e : Entry => e.cue.record) here)
    obtain ⟨x, before, same⟩ := List.mem_map.1 kept
    rw [hu, leaveQueue_queue] at before
    obtain ⟨y, filtered, rfl⟩ := List.mem_map.1 before
    obtain ⟨cue, -⟩ := y.hears_rest [record] w
    have other : y.cue.record ≠ record := by simpa using (List.mem_filter.1 filtered).2
    exact fun h => other (by rw [← cue, same, h])
  · rw [EntryLeft, hu, leaveQueue_queue, about.queue]
    exact forall₂_self_map (fun e => (clocksGone_hears_none [record] w e).congr about.prof about.now about.clock) _
  · rw [left.commit, about.ended]

/-! ## The decision of an attempt (R81 to R83) -/

theorem commitDecision_scene {s : State} {a : Attempt} {v : Eval} {l : List Assignment}
    (attempt : s.commit.attempt = some a) (arrived : a.toRead = []) (due : Due s v)
    (body : v.entry.cue.body = .scene l) (record : v.entry.cue.record = a.record) :
    commitDecision s = decideScene v a l (endAttempt s) := by
  simp [commitDecision, attempt, arrived, (dueEval_eq_some s v).2 due, body, record]

theorem firstInvalid_eq_none {a : Attempt} {l : List Assignment} (n : Nat)
    (valid : ∀ x ∈ l, (a.plate x.plate).invalid = false) : firstInvalid a n l = none := by
  induction l generalizing n with
  | nil => rfl
  | cons x rest ih =>
    rw [firstInvalid, if_neg (by simp [valid x (List.mem_cons_self ..)])]
    exact ih _ fun y there => valid y (List.mem_cons_of_mem _ there)

theorem firstInvalid_eq_some {a : Attempt} {l : List Assignment} {i : Nat} {x : Assignment} (n : Nat)
    (there : l[i]? = some x) (invalid : (a.plate x.plate).invalid = true)
    (first : ∀ j y, j < i → l[j]? = some y → (a.plate y.plate).invalid = false) :
    firstInvalid a n l = some (n + i, x.plate) := by
  induction l generalizing n i with
  | nil => simp at there
  | cons y rest ih =>
    cases i with
    | zero =>
      obtain rfl : y = x := by simpa using there
      rw [firstInvalid, if_pos invalid, Nat.add_zero]
    | succ i =>
      rw [firstInvalid, if_neg (by simp [first 0 y (Nat.succ_pos i) rfl])]
      rw [ih (n + 1) (by simpa using there) fun j z small at_j => first (j + 1) z (Nat.succ_lt_succ small) (by simpa using at_j)]
      rw [Nat.add_assoc, Nat.add_comm 1 i]

theorem decideScene_refuses {v : Eval} {a : Attempt} {l : List Assignment} {s : State} {i p : Nat}
    (h : firstInvalid a 0 l = some (i, p)) :
    decideScene v a l s =
      attemptRun (s.scheduler.queue.length + 1) (refusePlate v.entry.cue.record i p s) := by
  simp [decideScene, h]

section
variable {v : Eval} {a : Attempt} {l : List Assignment} {s : State}

theorem decideScene_waits (valid : firstInvalid a 0 l = none) (unready : ∃ x ∈ l, (a.plate x.plate).isReady = false)
    (slack : v.entry.slackUsed < v.entry.cue.slack) :
    decideScene v a l s = chargeSlack v.entry.cue.record s := by
  simp [decideScene, valid, unready, slack]

theorem decideScene_skips (valid : firstInvalid a 0 l = none) (unready : ∃ x ∈ l, (a.plate x.plate).isReady = false)
    (spent : v.entry.cue.slack ≤ v.entry.slackUsed) :
    decideScene v a l s = attemptRun (s.scheduler.queue.length + 1) (skipNotReady v s) := by
  simp [decideScene, valid, unready, Nat.not_lt.2 spent]

theorem decideScene_ready (valid : firstInvalid a 0 l = none) (ready : ∀ x ∈ l, (a.plate x.plate).isReady = true) :
    decideScene v a l s =
      if sceneRoom l s then attemptRun (s.scheduler.queue.length + 1) (commitScene v (s.now + s.horizon) a l s)
      else s := by
  have all : l.all (fun x => (a.plate x.plate).isReady) = true := List.all_eq_true.2 ready
  simp [decideScene, valid, all]

end

theorem PlateEntry.valid_of_ready {e : PlateEntry} (h : e.isReady = true) : e.invalid = false := by
  cases state : e.state with
  | empty => exact PlateEntry.invalid_of_empty state
  | ready => exact (PlateEntry.invalid_eq_false_iff_fits (.inr state)).2 (PlateEntry.isReady_of_ready state ▸ h)
  | loading =>
    rw [PlateEntry.isReady_of_ne_ready (by rw [state]; decide)] at h
    cases h
  | other =>
    rw [PlateEntry.isReady_of_ne_ready (by rw [state]; decide)] at h
    cases h

theorem sceneRoom_iff (l : List Assignment) (s : State) :
    sceneRoom l s = true ↔ s.commit.showing.length < 24 ∧
      ∀ x ∈ l, (s.tile x.tile).switches.countP (fun sw => sw.frame != s.now) < 16 := by
  simp only [sceneRoom, Bool.and_eq_true, decide_eq_true_eq, List.all_eq_true, State.pendingRoom_iff]
  rfl

theorem aboutToLeave_endAttempt {s w : State} (only : OnlyIn [.report] (endAttempt s) w) : AboutToLeave s w where
  queue := congrArg Scheduler.queue only.scheduler
  prof := only.prof
  now := only.now
  clock := congrArg Ftg.clock only.ftg
  follower := only.follower
  window := only.window
  ended := congrArg CommitUnit.attempt only.commit

/-- What the run after a decision leaves of the report and the showing table. -/
theorem dryEdge_attemptRun_keeps (before : State) (n : Nat) (u : State) :
    (dryEdge before (attemptRun n u)).report = u.report ∧
    (dryEdge before (attemptRun n u)).commit.showing = u.commit.showing := by
  have dry := onlyIn_dryEdge_after before (attemptRun n u)
  obtain ⟨report, showing, -⟩ := attemptRun_keeps n u
  rw [dry.report, dry.commit]
  exact ⟨report, showing⟩

theorem onlyIn_commitDecision_dry (s : State) :
    OnlyIn [.commit, .tiles, .ftg, .scheduler, .follower, .report, .window] s (dryEdge s (commitDecision s)) :=
  onlyIn_dryEdge s ((onlyIn_commitDecision s).mono (by decide)) (by decide)

/-- An attempt decided without a commit takes its entry out of the queue and hands on what `w` has handed on. -/
theorem decided_leaves {record : Nat} {s w : State} (there : ∃ e ∈ s.scheduler.queue, e.cue.record = record)
    (decided : commitDecision s = attemptRun (s.scheduler.queue.length + 1) (leaveQueue record w))
    (only : OnlyIn [.report] (endAttempt s) w) :
    ∃ t, exec .commitDecision s = .next t ∧ AttemptLeaves record s t ∧
      OnlyIn [.commit, .tiles, .ftg, .scheduler, .follower, .report, .window] s t ∧
      t.commit.showing = s.commit.showing ∧ t.report.queue = w.report.queue := by
  have left := onlyIn_leaveQueue record w
  obtain ⟨report, showing⟩ := dryEdge_attemptRun_keeps s (s.scheduler.queue.length + 1) (leaveQueue record w)
  refine ⟨dryEdge s (commitDecision s), rfl, ?_, onlyIn_commitDecision_dry s, ?_, ?_⟩
  · rw [decided]
    exact attemptLeaves (aboutToLeave_endAttempt only) there
  · rw [decided, showing, left.commit, only.commit]
    rfl
  · rw [decided, report, left.report]

theorem refusePlate_eq (record i p : Nat) (s : State) :
    ∃ w, refusePlate record i p s = leaveQueue record w ∧ OnlyIn [.report] s w ∧
      w.report.queue = s.report.queue ++ [.outcome ⟨record, .refused .badPlate⟩ false,
        .fault { kind := .badPlate, hold := false, address := BitVec.ofNat 32 record, frame := s.now,
                 detail := BitVec.ofNat 64 (i % 256 + 256 * (p % 256)) } false] :=
  ⟨_, rfl, (onlyIn_enqueueOutcome _ _ _).trans (onlyIn_enqueue _ _), List.append_assoc ..⟩

theorem dry_of_queue {s : State} (some : s.scheduler.queue ≠ []) : s.dry = false := by
  rw [State.dry, Bool.and_eq_false_iff]
  exact .inr (by simpa using some)

/-- Settles O44. -/
theorem unreadySceneWaitsOrLeaves : Obligations.UnreadySceneWaitsOrLeaves := by
  intro s a v l attempt arrived due body record
  have decided := commitDecision_scene attempt arrived due body record
  have there : ∃ e ∈ s.scheduler.queue, e.cue.record = v.entry.cue.record :=
    ⟨v.entry, (mem_evals_entry due.mem).1, rfl⟩
  have some : s.scheduler.queue ≠ [] := List.ne_nil_of_mem (mem_evals_entry due.mem).1
  refine ⟨fun i x at_i invalid first => ?refused, fun valid unready => ⟨fun slack => ?waits, fun spent => ?skipped⟩,
    fun ready full => ?noRoom⟩
  case refused =>
    rw [decideScene_refuses (firstInvalid_eq_some 0 at_i invalid first), Nat.zero_add] at decided
    obtain ⟨w, refused, only, queue⟩ := refusePlate_eq v.entry.cue.record i x.plate (endAttempt s)
    rw [refused] at decided
    obtain ⟨t, ran, leaves, parts, showing, report⟩ := decided_leaves there decided only
    exact ⟨t, ran, leaves, parts, showing, report.trans queue⟩
  case waits =>
    rw [decideScene_waits (firstInvalid_eq_none 0 valid) unready slack] at decided
    have quiet : dryEdge s (commitDecision s) = chargeSlack v.entry.cue.record (endAttempt s) := by
      rw [decided]
      exact dryEdge_of_not_dry (dry_of_queue (by simpa [chargeSlack, mapQueue, endAttempt] using some))
    refine ⟨_, congrArg Host.Outcome.next quiet, ?_, rfl, rfl⟩
    exact (onlyIn_setCommit s _).comp (onlyIn_chargeSlack _ (endAttempt s))
  case skipped =>
    rw [decideScene_skips (firstInvalid_eq_none 0 valid) unready spent] at decided
    exact decided_leaves there decided (onlyIn_enqueueOutcome _ _ _)
  case noRoom =>
    have closed : ¬ sceneRoom l (endAttempt s) = true := by
      rw [sceneRoom_iff]
      rintro ⟨table, lists⟩
      rcases full with full | ⟨x, here, full⟩
      · exact absurd table (Nat.not_lt.2 full)
      · exact absurd (lists x here) (Nat.not_lt.2 full)
    rw [decideScene_ready (firstInvalid_eq_none 0 fun x here => PlateEntry.valid_of_ready (ready x here)) ready, if_neg closed]
      at decided
    have quiet : dryEdge s (commitDecision s) = endAttempt s := by
      rw [decided]
      exact dryEdge_of_not_dry (dry_of_queue some)
    exact ⟨_, congrArg Host.Outcome.next quiet, onlyIn_setCommit s _, rfl⟩

end Sys2Proof.Machine
end

section
/-! Commits (R57, R65, R83 to R88): a ready scene at its decision, and the due cues of a frame start's run. -/

set_option Elab.async false

namespace Sys2Proof.Machine

/-! ## The demands (R84) -/

theorem contentOf_wordsPerFrame (size : Nat × Nat) (plate : Snapshot) (x0 y0 : Nat) (fill : Option Rgb) :
    (contentOf size plate x0 y0 fill).wordsPerFrame = cropWords size plate x0 y0 := by
  unfold Content.wordsPerFrame contentOf wordsPerRow columnsInside rowsInside cropWords
  dsimp only
  split <;> simp

theorem scene_of_isScene {sw : Switch} (h : sw.isScene = true) :
    ∃ n plate x0 y0 fill tr id, sw = ⟨n, .scene plate x0 y0 fill tr id⟩ := by
  obtain ⟨n, body⟩ := sw
  cases body with
  | scene plate x0 y0 fill tr id => exact ⟨n, plate, x0, y0, fill, tr, id, rfl⟩
  | trim => cases h
  | level => cases h

theorem contentBefore_words (s : State) (k : Nat) : (contentBefore s k).wordsPerFrame = wordsWithout s k := by
  set scenes := (s.tile k).switches.filter (·.isScene) with hs
  have contents : (s.tile k).switches.filterMap (sceneContent s k) =
      scenes.map fun sw => (sceneContent s k sw).getD .noPlate := by
    rw [← List.filterMap_eq_map', hs, List.filterMap_filter]
    refine List.filterMap_congr fun sw _ => ?_
    obtain ⟨n, body⟩ := sw
    cases body <;> rfl
  unfold contentBefore wordsWithout
  rw [contents, List.getLast?_map, ← hs]
  cases last : scenes.getLast? with
  | none => rfl
  | some sw =>
    obtain ⟨n, plate, x0, y0, fill, tr, id, rfl⟩ :=
      scene_of_isScene (List.mem_filter.1 (List.mem_of_getLast? last)).2
    exact contentOf_wordsPerFrame _ _ _ _ _

theorem LinkState.carries_iff (l : LinkState) : l.carries = true ↔ l = .joining ∨ l = .inStep := by
  cases l <;> simp [LinkState.carries]

theorem countedTiles_eq (s : State) : countedTiles s = tilesCounted s := by
  refine List.filter_congr fun k _ => ?_
  rw [Bool.eq_iff_iff, decide_eq_true_iff, LinkState.carries_iff]

theorem cutDemand_eq (s : State) (a : Attempt) (l : List Assignment) : cutDemand s a l = demandAtCut s a.plate l := by
  have words (k : Nat) : wordsAtV s a l k = wordsWith s a.plate l k := by
    unfold wordsAtV wordsWith
    cases found : l.find? (fun x => x.tile == k) with
    | none => exact contentBefore_words s k
    | some x =>
      obtain rfl : x.tile = k := by simpa using List.find?_some found
      exact contentOf_wordsPerFrame _ _ _ _ _
  rw [cutDemand, demandAtCut, countedTiles_eq, funext words]

theorem fadeDemand_eq (s : State) (a : Attempt) (l : List Assignment) :
    fadeDemand s a l = demandAtFade s a.plate l := by
  rw [fadeDemand, demandAtFade, cutDemand_eq, countedTiles_eq, funext (contentBefore_words s)]

/-- The transition that the demands leave, DEGRADED and OVER_BUDGET (R85). -/
theorem budgetCheck_spec (s : State) (a : Attempt) (l : List Assignment) (t : Transition) :
    budgetCheck s a l t =
      (match t with
        | .cut => Transition.cut
        | .fade n =>
          if (1 ≤ n ∧ s.prof.budget * 1024 < demandAtFade s a.plate l) ∨
            s.prof.budget * 1024 < demandAtCut s a.plate l then .cut else .fade n,
       match t with
        | .cut => false
        | .fade n => decide (1 ≤ n ∧ s.prof.budget * 1024 < demandAtFade s a.plate l),
       decide (s.prof.budget * 1024 < demandAtCut s a.plate l)) := by
  unfold budgetCheck
  rw [cutDemand_eq, fadeDemand_eq]
  cases t <;> simp

theorem sceneClipped_eq (s : State) (a : Attempt) (l : List Assignment) :
    sceneClipped s a l = l.any (fun x => decide ((a.plate x.plate).width - x.x0 < (s.prof.size x.tile).1 ∨
      (a.plate x.plate).height - x.y0 < (s.prof.size x.tile).2)) := by
  have clipped (x : Assignment) : (assignedContent s a x).clipped (s.prof.size x.tile) =
      decide ((a.plate x.plate).width - x.x0 < (s.prof.size x.tile).1 ∨
        (a.plate x.plate).height - x.y0 < (s.prof.size x.tile).2) := by
    rw [Bool.eq_iff_iff]
    simp [assignedContent, Content.clipped, contentOf, columnsInside, rowsInside, PlateEntry.snapshot]
  rw [sceneClipped, funext clipped]

/-! ## A scene commits (R87, R88, R91) -/

theorem Tile.placed_link (visible : Nat) (body : SwitchBody) (p : Profile) (t : Tile) :
    (t.placed visible body p).link = t.link := rfl

theorem Tile.mem_foldl_placed {α : Type} (visible : Nat) (body : α → SwitchBody) (p : Profile) {l : List α} {x : α}
    (here : x ∈ l) (t : Tile) :
    ⟨visible - (t.link.latency.getD p.lmax), body x⟩ ∈
      (l.foldl (fun t x => t.placed visible (body x) p) t).switches := by
  have keeps (m : List α) (u : Tile) : u.switches ⊆ (m.foldl (fun t x => t.placed visible (body x) p) u).switches := by
    induction m generalizing u with
    | nil => exact fun _ h => h
    | cons y rest ih => exact fun sw h => ih _ ((mem_insertSwitch _ _ _).2 (.inr h))
  induction l generalizing t with
  | nil => cases here
  | cons y rest ih =>
    rcases List.mem_cons.1 here with rfl | here
    · exact keeps rest _ (t.mem_placed visible (body x) p)
    · exact ih here (t.placed visible (body y) p)

/-- Every element of a list of switches to place has its own at its tile (R86, R87). -/
theorem mem_foldl_placeSwitch {α : Type} (on : α → Nat) (body : α → SwitchBody) (visible : Nat) {l : List α} {x : α}
    {s : State} (here : x ∈ l) (there : on x < s.tiles.length) :
    ⟨visible - ((s.tile (on x)).link.latency.getD s.prof.lmax), body x⟩ ∈
      ((l.foldl (fun u x => placeSwitch (on x) visible (body x) u) s).tile (on x)).switches := by
  rw [foldl_placeSwitch_tile on body visible l there]
  exact Tile.mem_foldl_placed visible body s.prof (List.mem_filter.2 ⟨here, by simp⟩) _

/-- What every move of the run keeps of the Cue Scheduler beside the queue: the last committed frame stays at the
horizon, and the last committed scene stands. -/
theorem attemptRun_lastFrame {s : State} (n : Nat) (h : s.scheduler.lastFrame = some (s.now + s.horizon)) :
    (attemptRun n s).scheduler.lastFrame = some (s.now + s.horizon) := by
  have := attemptRun_induction (R := fun s t => t.now = s.now ∧ t.horizon = s.horizon ∧
      (s.scheduler.lastFrame = some (s.now + s.horizon) → t.scheduler.lastFrame = some (s.now + s.horizon)))
    (fun s => ⟨rfl, rfl, id⟩) ?_ ?_ n s
  · exact this.2.2 h
  · rintro s t u ⟨now, horizon, last⟩ ⟨now', horizon', last'⟩
    rw [now, horizon] at last'
    exact ⟨now'.trans now, horizon'.trans horizon, fun h => last' (last h)⟩
  · intro s t move
    obtain ⟨now, horizon⟩ := (runKeeps_move move).beat
    refine ⟨now, horizon, fun h => ?_⟩
    cases move with
    | attempts => exact h
    | commits =>
      obtain ⟨f, -, scheduler⟩ := leaveQueue_scheduler _ _
      rw [commitDue_eq, leaveCommitted, scheduler]
      rfl

/-- The showing-table entry a committing scene makes (R91). -/
def Eval.showEntry (v : Eval) (visible : Nat) (a : Attempt) (l : List Assignment) (s : State) : ShowEntry :=
  let c := v.entry.cue
  let decided := budgetCheck s a l c.transition
  { id := ⟨c.record, s.commit.commitCount + 1⟩, visible := visible
    dwellEnd := if c.dwell = 0 then none else some (visible + c.dwell), held := l.map Assignment.tile, shown := false
    degraded := decided.2.1, clipped := sceneClipped s a l, overBudget := decided.2.2, keep := c.keep }

/-- The switch a committing scene places for an assignment (R87). -/
def Eval.sceneSwitch (v : Eval) (a : Attempt) (l : List Assignment) (s : State) (x : Assignment) : SwitchBody :=
  .scene (a.plate x.plate).snapshot x.x0 x.y0 x.fill (budgetCheck s a l v.entry.cue.transition).1
    ⟨v.entry.cue.record, s.commit.commitCount + 1⟩

/-- A committing scene's entry joins the showing table, and its switches the pending lists (R87, R91). -/
def sceneSwitched (v : Eval) (visible : Nat) (a : Attempt) (l : List Assignment) (s : State) : State :=
  l.foldl (fun u x => placeSwitch x.tile visible (v.sceneSwitch a l s x) u)
    (s.setCommit { s.commit with
      showing := s.commit.showing ++ [v.showEntry visible a l s], commitCount := s.commit.commitCount + 1 })

/-- The state with a scene committed but its entry not yet gone from the queue. -/
def scenePlaced (v : Eval) (visible : Nat) (a : Attempt) (l : List Assignment) (s : State) : State :=
  let e := v.showEntry visible a l s
  let t := enqueueOutcome v.entry.cue.record (.committed visible v.slip v.entry.late) (sceneSwitched v visible a l s)
  t.setScheduler { t.scheduler with
    lastScene := some { id := e.id, visible := visible, dwell := v.entry.cue.dwell, dwellEnd := e.dwellEnd
                        extend := v.entry.cue.extend }
    lastFrame := some visible }

theorem commitScene_eq (v : Eval) (visible : Nat) (a : Attempt) (l : List Assignment) (s : State) :
    commitScene v visible a l s = leaveQueue v.entry.cue.record (scenePlaced v visible a l s) := rfl

section
variable (v : Eval) (visible : Nat) (a : Attempt) (l : List Assignment) (s : State)

theorem onlyIn_sceneSwitched : OnlyIn [.commit, .tiles] s (sceneSwitched v visible a l s) :=
  ((onlyIn_setCommit s _).mono (by decide)).trans
    ((foldl_placeSwitch_only Assignment.tile (v.sceneSwitch a l s) visible l _).mono (by decide))

theorem onlyIn_scenePlaced : OnlyIn [.commit, .tiles, .report, .scheduler] s (scenePlaced v visible a l s) :=
  (((onlyIn_sceneSwitched v visible a l s).mono (by decide)).trans
    ((onlyIn_enqueueOutcome _ _ _).mono (by decide))).trans ((onlyIn_setScheduler _ _).mono (by decide))

theorem scenePlaced_commit : (scenePlaced v visible a l s).commit =
    { s.commit with showing := s.commit.showing ++ [v.showEntry visible a l s]
                    commitCount := s.commit.commitCount + 1 } :=
  (foldl_placeSwitch_only Assignment.tile (v.sceneSwitch a l s) visible l _).commit

theorem scenePlaced_scheduler : (scenePlaced v visible a l s).scheduler =
    { s.scheduler with
      lastScene := some { id := (v.showEntry visible a l s).id, visible := visible, dwell := v.entry.cue.dwell
                          dwellEnd := (v.showEntry visible a l s).dwellEnd, extend := v.entry.cue.extend }
      lastFrame := some visible } := by
  have before := (onlyIn_sceneSwitched v visible a l s).scheduler
  unfold scenePlaced enqueueOutcome enqueue
  dsimp only [State.setScheduler_scheduler, State.setReport_scheduler]
  rw [before]

theorem scenePlaced_report : (scenePlaced v visible a l s).report.queue = s.report.queue ++
    [.outcome ⟨v.entry.cue.record, .committed visible v.slip v.entry.late⟩ false] :=
  congrArg (fun r : Report => r.queue ++ [.outcome ⟨v.entry.cue.record, .committed visible v.slip v.entry.late⟩ false])
    (onlyIn_sceneSwitched v visible a l s).report

variable {l}

theorem mem_scenePlaced {x : Assignment} (here : x ∈ l) (there : x.tile < s.tiles.length) :
    ⟨visible - ((s.tile x.tile).link.latency.getD s.prof.lmax), v.sceneSwitch a l s x⟩ ∈
      ((scenePlaced v visible a l s).tile x.tile).switches :=
  mem_foldl_placeSwitch Assignment.tile (v.sceneSwitch a l s) visible
    (s := s.setCommit { s.commit with showing := s.commit.showing ++ [v.showEntry visible a l s]
                                      commitCount := s.commit.commitCount + 1 }) here there

end

theorem aboutToLeave_scenePlaced (v : Eval) (a : Attempt) (l : List Assignment) (s : State) :
    AboutToLeave s (scenePlaced v (s.now + s.horizon) a l (endAttempt s)) := by
  have only := onlyIn_scenePlaced v (s.now + s.horizon) a l (endAttempt s)
  refine ⟨?_, only.prof, only.now, congrArg Ftg.clock only.ftg, only.follower, only.window, ?_⟩
  · rw [scenePlaced_scheduler]
    rfl
  · rw [scenePlaced_commit]
    rfl

/-! ## The plates of an attempt (R132) -/

theorem idxOf_filter_lt {l : List Nat} {a p q : Nat} (hp : p ≠ a) (hq : q ≠ a)
    (h : (l.filter (fun b => !b == a)).idxOf p < (l.filter (fun b => !b == a)).idxOf q) : l.idxOf p < l.idxOf q := by
  induction l with
  | nil => simp at h
  | cons b rest ih =>
    by_cases drop : b = a
    · have bp : b ≠ p := fun h => hp (h.symm.trans drop)
      have bq : b ≠ q := fun h => hq (h.symm.trans drop)
      rw [List.filter_cons_of_neg (by simp [drop])] at h
      rw [List.idxOf_cons_ne _ bp, List.idxOf_cons_ne _ bq]
      exact Nat.succ_lt_succ (ih h)
    · rw [List.filter_cons_of_pos (by simp [drop])] at h
      by_cases bq : b = q
      · rw [bq, List.idxOf_cons_self] at h
        cases h
      · by_cases bp : b = p
        · rw [bp, List.idxOf_cons_self, List.idxOf_cons_ne _ (bp ▸ bq)]
          exact Nat.succ_pos _
        · rw [List.idxOf_cons_ne _ bp, List.idxOf_cons_ne _ bq] at h ⊢
          exact Nat.succ_lt_succ (ih (Nat.lt_of_succ_lt_succ h))

theorem mem_eraseDups_iff {l : List Nat} {p : Nat} : p ∈ l.eraseDups ↔ p ∈ l := List.mem_eraseDups

/-- Each value once, in order of first appearance. -/
theorem pairwise_eraseDups (l : List Nat) : l.eraseDups.Pairwise (fun p q => l.idxOf p < l.idxOf q) := by
  induction h : l.length using Nat.strong_induction_on generalizing l with
  | _ n ih =>
    cases l with
    | nil => exact .nil
    | cons a rest =>
      rw [List.eraseDups_cons, List.pairwise_cons]
      have other {q : Nat} (here : q ∈ (rest.filter (fun b => !b == a)).eraseDups) : q ≠ a := by
        simpa using (List.mem_filter.1 (List.mem_eraseDups.1 here)).2
      refine ⟨fun q here => ?_, ?_⟩
      · rw [List.idxOf_cons_self, List.idxOf_cons_ne _ (other here).symm]
        exact Nat.succ_pos _
      · have short : (rest.filter (fun b => !b == a)).length < n := by
          rw [← h]
          exact Nat.lt_succ_of_le (List.length_filter_le ..)
        refine (ih _ short _ rfl).imp_of_mem fun {p q} hp hq before => ?_
        rw [List.idxOf_cons_ne _ (other hp).symm, List.idxOf_cons_ne _ (other hq).symm]
        exact Nat.succ_lt_succ (idxOf_filter_lt (other hp) (other hq) before)

theorem attemptRoom_iff (s : State) : s.attemptRoom = true ↔ 8 ≤ s.openPlaces := by
  rw [State.attemptRoom, Bool.and_eq_true, decide_eq_true_iff]
  refine ⟨And.left, fun places => ⟨places, ?_⟩⟩
  rw [State.openPlaces] at places
  split at places
  · next empty => rw [empty]; rfl
  · cases places

/-! ## What a committing cue places (R88) -/

theorem mem_addClockSet (visible : Nat) (value : Clock) (record : Nat) (l : List ClockSet) :
    (∃ e ∈ addClockSet visible value record l, e.visible = visible ∧ e.value = value ∧ record ∈ e.records) ∧
    ∀ e ∈ l, e.visible ≠ visible → e ∈ addClockSet visible value record l := by
  induction l with
  | nil => exact ⟨⟨_, List.mem_singleton.2 rfl, rfl, rfl, List.mem_singleton.2 rfl⟩, fun e h => nomatch h⟩
  | cons x rest ih =>
    rw [addClockSet]
    split
    · next same =>
      refine ⟨⟨_, List.mem_cons_self .., same, rfl, List.mem_append_right _ (List.mem_singleton.2 rfl)⟩, fun e h ne => ?_⟩
      rcases List.mem_cons.1 h with rfl | h
      · exact absurd same ne
      · exact List.mem_cons_of_mem _ h
    · split
      · exact ⟨⟨_, List.mem_cons_self .., rfl, rfl, List.mem_singleton.2 rfl⟩, fun e h _ => List.mem_cons_of_mem _ h⟩
      · obtain ⟨⟨e, there, rest'⟩, keeps⟩ := ih
        refine ⟨⟨e, List.mem_cons_of_mem _ there, rest'⟩, fun e h ne => ?_⟩
        rcases List.mem_cons.1 h with rfl | h
        · exact List.mem_cons_self ..
        · exact List.mem_cons_of_mem _ (keeps e h ne)

theorem dueRoom_iff (body : CueBody) (s : State) :
    dueRoom body s = true ↔ s.commit.due.length < 16 ∧ ∀ l, body = .trim l → ∀ x ∈ l,
      (s.tile x.tile).switches.countP (fun sw => sw.frame != s.now) < 16 := by
  unfold dueRoom
  rw [Bool.and_eq_true, decide_eq_true_iff]
  refine and_congr_right fun _ => ?_
  cases body with
  | trim l => simp [State.pendingRoom_iff]
  | scene l => simp
  | clock c => simp
  | mark tag => simp

theorem commitDue_tiles (v : Eval) (visible : Nat) (s : State) :
    (commitDue v visible s).tiles = (placeDue v.entry.cue visible (joinDue v visible s)).tiles := by
  rw [commitDue_eq]
  exact (onlyIn_leaveCommitted _ _ _).tiles

theorem commitDue_ftg_eq (v : Eval) (visible : Nat) (s : State) :
    (commitDue v visible s).ftg = (placeDue v.entry.cue visible (joinDue v visible s)).ftg := by
  rw [commitDue_eq]
  exact (onlyIn_leaveCommitted _ _ _).ftg

theorem commitDue_lastFrame (v : Eval) (visible : Nat) (s : State) :
    (commitDue v visible s).scheduler.lastFrame = some visible := by
  obtain ⟨f, -, scheduler⟩ := leaveQueue_scheduler v.entry.cue.record
    ((placeDue v.entry.cue visible (joinDue v visible s)).setScheduler
      { (placeDue v.entry.cue visible (joinDue v visible s)).scheduler with lastFrame := some visible })
  rw [commitDue_eq, leaveCommitted, scheduler]
  rfl

/-- The entry of a cue that is not a scene leaves the queue at its commit; those that waited for a CLOCK cue learn its
frame (R65). -/
theorem entryLeft_commitDue (v : Eval) (visible : Nat) (s : State) :
    EntryLeft v.entry.cue.record (if v.entry.cue.body.isClock then some visible else none) s (commitDue v visible s) := by
  rw [EntryLeft, commitDue_queue]
  refine forall₂_self_map (fun e => clocksGone_hears ?_ ?_) _
  · unfold Cue.tells Entry.promised
    split
    · split <;> rfl
    · rfl
  · unfold Cue.tells Entry.promised
    cases clock : v.entry.cue.body.isClock with
    | false => simp
    | true =>
      have waits : e.clockAhead.contains v.entry.cue.record = true ↔ ∃ r ∈ [v.entry.cue.record], r ∈ e.clockAhead := by
        simp
      refine ⟨fun n told heard => ?_, fun quiet => ?_⟩
      · obtain rfl : visible = n := by simpa using told
        rw [if_pos rfl, if_pos (waits.2 heard)]
        cases e.clockFrame <;> simp
      · have deaf : ¬ e.clockAhead.contains v.entry.cue.record = true := fun h =>
          quiet.elim (fun h => by simp at h) fun deaf => deaf (waits.1 h)
        rw [if_pos rfl, if_neg deaf]

/-! ## The frame start and DRY (R44) -/

theorem FrameEnd.dry {s t : State} (h : FrameEnd (untilRefresh s) t) (waits : s.follower.state = .awaitLink) :
    t.follower.state = .awaitLink := by
  rw [h.follower_of_awaitLink waits, Follower.polled]
  split
  · exact waits
  · exact waits

theorem frameRun_eq (s : State) :
    frameRun s = attemptRun ((markAttemptable (takeRefresh (untilRefresh s))).scheduler.queue.length + 1)
      (markAttemptable (takeRefresh (untilRefresh s))) := by
  unfold frameRun
  generalize takeRefresh (untilRefresh s) = u
  have length : (markAttemptable u).scheduler.queue.length = u.scheduler.queue.length := List.length_map ..
  rw [length]

theorem frameStart_dry {s : State} (running : s.ftg.running = true) (fresh : s.ftg.begun = false)
    (waits : s.follower.state = .awaitLink) (some : s.scheduler.queue ≠ [])
    (empty : (dryEdge s (pollLink (frameRun s))).scheduler.queue = []) :
    (dryEdge s (pollLink (frameRun s))).flag .dry = true := by
  obtain ⟨t, ran, done⟩ := frameStart_ends running fresh
  have ends : dryEdge s (pollLink (frameRun s)) = t := by
    rw [exec_frameStart_whole running fresh, wholeFrameStart_eq] at ran
    exact Host.Outcome.next.inj ran
  have still := done.dry waits
  rw [← ends] at still
  generalize pollLink (frameRun s) = w at *
  have dry := onlyIn_dryEdge_after s w
  rw [dry.scheduler] at empty
  rw [dry.follower] at still
  refine flag_dryEdge (dry_of_queue some) ?_
  simp [State.dry, still, empty]

theorem isScene_eq_false_iff {body : CueBody} : body.isScene = false ↔ ∀ l, body ≠ .scene l := by
  cases body <;> simp [CueBody.isScene]

theorem placeDue_trim {c : Cue} {l : List TrimEntry} (body : c.body = .trim l) (visible : Nat) (s : State) :
    placeDue c visible s = l.foldl (fun u x => placeSwitch x.tile visible (.trim x.street x.dusk) u) s := by
  unfold placeDue
  rw [body]

theorem placeDue_clock_eq {c : Cue} {value : Clock} (body : c.body = .clock value) (visible : Nat) (s : State) :
    placeDue c visible s = clockCommitted c.record visible
      (s.setFtg { s.ftg with clockSets := addClockSet visible value c.record s.ftg.clockSets }) := by
  unfold placeDue
  rw [body]

theorem placeDue_mark {c : Cue} {tag : BitVec 32} (body : c.body = .mark tag) (visible : Nat) (s : State) :
    placeDue c visible s = s := by
  unfold placeDue
  rw [body]

theorem commitDue_gone (v : Eval) (visible : Nat) (s : State) :
    ∀ e ∈ (commitDue v visible s).scheduler.queue, e.cue.record ≠ v.entry.cue.record := by
  rw [commitDue_queue]
  intro e there
  obtain ⟨x, here, rfl⟩ := List.mem_map.1 there
  have cue := ((x.ages_tells (p := s.prof) (n := s.now) (clock := s.ftg.clock) v.entry.cue visible).trans
    (Entry.ages_hears [v.entry.cue.record] _)).cue
  rw [cue]
  simpa using (List.mem_filter.1 here).2

theorem Eval.showEntry_eq (v : Eval) (visible : Nat) (a : Attempt) (l : List Assignment) (s : State) :
    v.showEntry visible a l s =
      { id := ⟨v.entry.cue.record, s.commit.commitCount + 1⟩, visible := visible, held := l.map (·.tile)
        shown := false, keep := v.entry.cue.keep
        dwellEnd := if v.entry.cue.dwell = 0 then none else some (visible + v.entry.cue.dwell)
        degraded := match v.entry.cue.transition with
          | .cut => false
          | .fade n => decide (1 ≤ n ∧ s.prof.budget * 1024 < demandAtFade s a.plate l)
        overBudget := decide (s.prof.budget * 1024 < demandAtCut s a.plate l)
        clipped := l.any (fun x => decide ((a.plate x.plate).width - x.x0 < (s.prof.size x.tile).1 ∨
          (a.plate x.plate).height - x.y0 < (s.prof.size x.tile).2)) } := by
  rw [Eval.showEntry, budgetCheck_spec, sceneClipped_eq]

/-- Settles O43. -/
theorem readySceneCommits : Obligations.ReadySceneCommits := by
  refine ⟨fun s a v l attempt arrived due body record ready table lists columns => ?scene,
    fun s running fresh => ?frameStart, fun n u stops => ?stops, fun n u v l wall idle due places body => ?attempts,
    fun n u v wall idle due places other => ⟨fun closed => ?deferred, fun room => ?commits⟩⟩
  case scene =>
    intro budget cut fade tr
    have room : sceneRoom l (endAttempt s) = true := (sceneRoom_iff _ _).2 ⟨table, lists⟩
    have decided := commitDecision_scene attempt arrived due body record
    rw [decideScene_ready (firstInvalid_eq_none 0 fun x here => PlateEntry.valid_of_ready (ready x here)) ready,
      if_pos room, commitScene_eq] at decided
    set w := scenePlaced v (s.now + s.horizon) a l (endAttempt s) with hw
    have decided : commitDecision s = attemptRun (s.scheduler.queue.length + 1) (leaveQueue v.entry.cue.record w) :=
      decided
    have left := onlyIn_leaveQueue v.entry.cue.record w
    have about := aboutToLeave_scenePlaced v a l s
    have leaves := attemptLeaves about ⟨v.entry, (mem_evals_entry due.mem).1, rfl⟩
    have dry := onlyIn_dryEdge_after s (commitDecision s)
    have runs := runKeeps_attemptRun (s.scheduler.queue.length + 1) (leaveQueue v.entry.cue.record w)
    obtain ⟨report, showing, lastScene⟩ :=
      attemptRun_keeps (s.scheduler.queue.length + 1) (leaveQueue v.entry.cue.record w)
    obtain ⟨f, -, scheduler⟩ := leaveQueue_scheduler v.entry.cue.record w
    refine ⟨dryEdge s (commitDecision s), ⟨v.entry.cue.record, s.commit.commitCount + 1⟩, rfl, rfl, rfl, ?_, ?_, ?_,
      ?_, ?_, ?_, onlyIn_commitDecision_dry s⟩
    · rw [dry.commit, decided, showing, left.commit, scenePlaced_commit, Eval.showEntry_eq]
      rfl
    · intro x here
      have placed := mem_scenePlaced v (s.now + s.horizon) a (endAttempt s) here (columns x here)
      refine ⟨⟨s.now + s.horizon - ((s.tile x.tile).link.latency.getD s.prof.lmax),
        v.sceneSwitch a l (endAttempt s) x⟩, ?_, ?_, rfl⟩
      · rw [dry.tile, decided]
        refine (runs.tile x.tile).kept.subset ?_
        rw [left.tile]
        exact placed
      · show Eval.sceneSwitch v a l (endAttempt s) x = _
        rw [Eval.sceneSwitch, budgetCheck_spec]
        rfl
    · rw [dry.report, decided, report, left.report]
      exact scenePlaced_report v (s.now + s.horizon) a l (endAttempt s)
    · rw [dry.scheduler, decided]
      have horizon : (leaveQueue v.entry.cue.record w).horizon = s.horizon :=
        left.horizon.trans (congrArg (·.lmax + 1) about.prof)
      have now : (leaveQueue v.entry.cue.record w).now = s.now := left.now.trans about.now
      rw [← now, ← horizon]
      refine attemptRun_lastFrame _ ?_
      rw [scheduler, scenePlaced_scheduler, now, horizon]
    · rw [dry.scheduler, decided, lastScene, scheduler, scenePlaced_scheduler]
      rfl
    · rw [decided]
      exact leaves
  case frameStart =>
    intro u t
    have whole := exec_frameStart_whole running fresh
    have dry := frameStart_dry (s := s) running fresh
    rw [wholeFrameStart_eq, frameRun_eq] at whole
    rw [frameRun_eq] at dry
    exact ⟨whole, dry⟩
  case stops =>
    refine attemptRun_stops ?_
    rcases stops with closed | wall | busy | none
    · exact .inr (.inr (.inr (by
        rw [← Bool.not_eq_true, attemptRoom_iff]
        exact Nat.not_le.2 closed)))
    · exact .inl wall
    · exact .inr (.inl busy)
    · exact .inr (.inr (.inl ((dueEval_eq_none u).2 none)))
  case attempts =>
    intro named
    refine ⟨platesOf l, _, attemptRun_attempts wall idle ((dueEval_eq_some u v).2 due) ((attemptRoom_iff u).2 places) body,
      onlyIn_setCommit u _, rfl, ?_, fun p => List.mem_eraseDups, pairwise_eraseDups named⟩
    simp [State.reservedPlaces, idle]
  case deferred =>
    rw [attemptRun_other wall idle ((dueEval_eq_some u v).2 due) ((attemptRoom_iff u).2 places)
      (isScene_eq_false_iff.2 other), if_neg fun h => closed ((dueRoom_iff _ _).1 h)]
  case commits =>
    set c := v.entry.cue with hc
    have ran := attemptRun_other (n := n) wall idle ((dueEval_eq_some u v).2 due) ((attemptRoom_iff u).2 places)
      (isScene_eq_false_iff.2 other)
    rw [if_pos ((dueRoom_iff _ _).2 room)] at ran
    have placed := onlyIn_placeDue c (u.now + u.horizon) (joinDue v (u.now + u.horizon) u)
    have tiles := commitDue_tiles v (u.now + u.horizon) u
    have ftg := commitDue_ftg_eq v (u.now + u.horizon) u
    refine ⟨commitDue v (u.now + u.horizon) u, ran, onlyIn_commitDue v _ u, commitDue_commit v _ u,
      commitDue_lastFrame v _ u, (commitDue_keeps v _ u).2.2, commitDue_gone v _ u, ?_, ?_, ?_, fun l body => ?_,
      fun value body => ?_, fun tag body => ?_⟩
    · obtain ⟨sets, ftg⟩ := commitDue_ftg v (u.now + u.horizon) u
      rw [ftg]
    · rw [commitDue_eq]
      exact followerTold_leaveQueue placed.follower
    · have left := entryLeft_commitDue v (u.now + u.horizon) u
      cases body : c.body <;> rw [← hc, body] at left <;> exact left
    · rw [← hc, placeDue_trim body] at tiles ftg
      refine ⟨ftg.trans (foldl_placeSwitch_only TrimEntry.tile _ _ l _).ftg, fun x here there => ?_⟩
      rw [State.tile, tiles]
      exact mem_foldl_placeSwitch TrimEntry.tile (fun x => .trim x.street x.dusk) (u.now + u.horizon)
        (s := joinDue v (u.now + u.horizon) u) here there
    · rw [← hc, placeDue_clock_eq body] at tiles ftg
      refine ⟨tiles, ?_⟩
      rw [ftg]
      exact mem_addClockSet (u.now + u.horizon) value c.record u.ftg.clockSets
    · rw [← hc, placeDue_mark body] at tiles ftg
      exact ⟨tiles, ftg⟩

end Sys2Proof.Machine
end

section
/-! The look-ahead queue over a frame start (R65, R69, R73, R78). -/

set_option Elab.async false

namespace Sys2Proof.Machine

/-! ## From the Cue Scheduler's turn to the end of the frame start -/

theorem QueueRuns.outlasting {n : Nat} {s t u : State} (h : QueueRuns (OutlastsRun n) s t)
    (g : QueueRuns (OutlastsRun n) t u) (now : s.now = n) : QueueRuns (OutlastsRun n) s u :=
  h.trans g fun _ _ age h => h.ages (now ▸ age)

theorem frameStart_queueRuns {s t : State} (running : s.ftg.running = true) (fresh : s.ftg.begun = false)
    (ran : exec .frameStart s = .next t) :
    QueueRuns (OutlastsRun (s.now + 1)) (scheduleAtFrameStart (beginFrame s)) t := by
  rw [exec_frameStart_whole running fresh] at ran
  have ends := Host.Outcome.next.inj ran
  have now : (untilRefresh s).now = s.now + 1 := untilRefresh_now s
  have still : OnlyIn [.tiles, .commit, .window, .store, .report] (scheduleAtFrameStart (beginFrame s)) (untilRefresh s) := by
    have scanned : OnlyIn [.tiles, .commit, .window] (scheduleAtFrameStart (beginFrame s)) (frameScanned s) :=
      (onlyIn_scanAtFrameStart _).mono (by decide)
    exact ((scanned.mono (by decide)).trans ((onlyIn_frameStopped s).mono (by decide))).trans
      ((onlyIn_untilRefresh_frameStopped s).mono (by decide))
  rw [← ends, wholeFrameStart_eq, frameRun]
  generalize untilRefresh s = u at *
  have marked : QueueRuns (OutlastsRun (s.now + 1)) u (markAttemptable (takeRefresh u)) :=
    ((onlyIn_takeRefresh u).queueRuns).outlasting (queueRuns_markAttemptable _) now
  have attempts := queueRuns_attemptRun ((takeRefresh u).scheduler.queue.length + 1) (markAttemptable (takeRefresh u))
  rw [marked.now, now] at attempts
  exact ((still.queueRuns.outlasting (marked.outlasting attempts now) (scheduled_now s)).outlasting
    ((onlyIn_pollLink _).queueRuns) (scheduled_now s)).outlasting ((onlyIn_dryEdge_after s _).queueRuns) (scheduled_now s)

/-! ## Writes handed on -/

/-- From `s` to `t` outcome writes have only been handed on. -/
def HandsOn (s t : State) : Prop := s.report.queue <+: t.report.queue ∧ s.commit.handoff <+: t.commit.handoff

theorem HandsOn.refl (s : State) : HandsOn s s := ⟨List.prefix_rfl, List.prefix_rfl⟩

theorem HandsOn.trans {s t u : State} (h : HandsOn s t) (g : HandsOn t u) : HandsOn s u :=
  ⟨h.1.trans g.1, h.2.trans g.2⟩

theorem HandsOn.of_eq {s t : State} (queue : t.report.queue = s.report.queue)
    (handoff : t.commit.handoff = s.commit.handoff) : HandsOn s t :=
  ⟨queue ▸ List.prefix_rfl, handoff ▸ List.prefix_rfl⟩

theorem Handed.mono {record : Nat} {kind : OutcomeKind} {s t : State} (h : Handed record kind s) (on : HandsOn s t) :
    Handed record kind t :=
  h.imp (on.1.subset ·) (on.2.subset ·)

theorem handsOn_handOn (record : Nat) (kind : OutcomeKind) (s : State) : HandsOn s (handOn record kind s) := by
  unfold handOn
  split
  · exact ⟨List.prefix_append _ _, List.prefix_rfl⟩
  · exact ⟨List.prefix_rfl, List.prefix_append _ _⟩

theorem handed_handOn (record : Nat) (kind : OutcomeKind) (s : State) : Handed record kind (handOn record kind s) := by
  unfold handOn
  split
  · exact .inl (List.mem_append_right _ (List.mem_singleton.2 rfl))
  · exact .inr (List.mem_append_right _ (List.mem_singleton.2 rfl))

theorem endJob_queue (kind : JobKind) (outcome : JobOutcome) (s : State) :
    (endJob kind outcome s).report = { s.report with resultNew := true } := by
  unfold endJob
  dsimp only
  split <;> rfl

theorem handsOn_endJob (kind : JobKind) (outcome : JobOutcome) (s : State) : HandsOn s (endJob kind outcome s) :=
  .of_eq (by rw [endJob_queue]) (congrArg CommitUnit.handoff (onlyIn_endJob kind outcome s).commit)

theorem handsOn_offerTrimJob (entries : List TrimEntry) (s : State) : HandsOn s (offerTrimJob entries s).1 := by
  unfold offerTrimJob placeJob
  split
  · exact .refl s
  · split
    · dsimp only
      split
      · exact handsOn_endJob _ _ s
      · exact .of_eq rfl rfl
    · exact handsOn_endJob _ _ s

theorem handsOn_dueEffect (e : DueEntry) (s : State) : HandsOn s (dueEffect e s).1 := by
  unfold dueEffect
  split
  · exact .refl s
  · exact .refl s
  · exact .of_eq rfl rfl
  · split
    · exact handsOn_offerTrimJob _ s
    · exact .refl s

theorem handsOn_foldl {α : Type} {f : State → α → State} (h : ∀ s x, HandsOn s (f s x)) (l : List α) (s : State) :
    HandsOn s (l.foldl f s) := by
  induction l generalizing s with
  | nil => exact .refl s
  | cons x rest ih => exact (h s x).trans (ih _)

theorem handsOn_showScene (e : ShowEntry) (s : State) : HandsOn s (showScene e s) := by
  unfold showScene
  exact .trans (.of_eq (by rfl) (by rfl)) (handsOn_handOn _ _ _)

theorem handsOn_completeDue (e : DueEntry) (s : State) : HandsOn s (completeDue e s) := by
  unfold completeDue
  exact .trans (.trans (.of_eq (by rfl) (by rfl)) (handsOn_dueEffect e _)) (handsOn_handOn _ _ _)

theorem handsOn_completeReaching (s : State) (x : Reaching) : HandsOn s (completeReaching s x) := by
  cases x with
  | scene e => exact handsOn_showScene e s
  | due e => exact handsOn_completeDue e s

theorem handsOn_releaseScenes (s : State) : HandsOn s (releaseScenes s) := by
  unfold releaseScenes
  refine .trans (.of_eq (by rfl) (by rfl)) (handsOn_foldl (fun u e => ?_) _ _)
  split
  · exact .refl u
  · exact handsOn_handOn _ _ u

theorem handsOn_completeStop (s : State) : HandsOn s (completeStop s) := by
  unfold completeStop
  split
  · exact .of_eq rfl rfl
  · exact .refl s

theorem handsOn_takeRefresh (s : State) : HandsOn s (takeRefresh s) := by
  unfold takeRefresh
  split
  · exact ⟨List.prefix_append _ _, List.prefix_rfl⟩
  · exact .of_eq rfl rfl

theorem FrameEnd.handsOn {u t : State} (h : FrameEnd u t) : HandsOn u t := by
  refine ⟨?_, h.handoff ▸ List.prefix_rfl⟩
  rw [h.report]
  exact (handsOn_takeRefresh u).1

theorem handsOn_untilRefresh_of_stopped (s : State) : HandsOn (frameStopped s) (untilRefresh s) :=
  .of_eq (congrArg Report.queue (onlyIn_untilRefresh_frameStopped s).report) (by rw [untilRefresh_commit])

/-- From the completions to the refresh. -/
theorem handsOn_untilRefresh (s : State) : HandsOn (frameScanned s) (untilRefresh s) :=
  (handsOn_foldl handsOn_completeReaching _ (frameScanned s)).trans
    ((handsOn_releaseScenes _).trans ((handsOn_completeStop (frameReleased s)).trans (handsOn_untilRefresh_of_stopped s)))

/-! ## Waits whose limit is met (R69) -/

/-- The state at a frame start before the writes that wait are received. -/
def frameAdvanced (s : State) : State := endAttempt (advanceFtg (linksAtFrameStart s))

theorem frameAdvanced_scheduler (s : State) : (frameAdvanced s).scheduler = s.scheduler := by
  rw [frameAdvanced, (onlyIn_endAttempt _).scheduler, advanceFtg, (onlyIn_setFtg _ _).scheduler,
    (onlyIn_linksAtFrameStart s).scheduler]

theorem queueRuns_receiveWaiting (s : State) :
    QueueRuns (fun e => e.departing = none) s (receiveWaiting s) := by
  unfold receiveWaiting
  have faults (l : List FaultRecord) (u : State) : OnlyIn [.report] u (l.foldl (fun u _ => receiveHoldFault u) u) :=
    onlyIn_foldl _ (fun u _ => onlyIn_receiveHoldFault u) l u
  have writes (l : List OutcomeWrite) (u : State) :
      OnlyIn [.report, .commit] u (l.foldl (fun u _ => receiveHandoff u) u) :=
    onlyIn_foldl _ (fun u _ => onlyIn_receiveHandoff u) l u
  have keep (s : State) (e x : Entry) (age : e.Ages s.prof s.now s.ftg.clock x) (h : e.departing = none) :
      x.departing = none := age.departing.trans h
  exact ((queueRuns_drainDeparting _ s).trans (faults _ _).queueRuns (keep s)).trans (writes _ _).queueRuns (keep s)

theorem queueRuns_beginFrame (s : State) :
    QueueRuns (fun e => e.departing = none) (frameAdvanced s) (beginFrame s) := queueRuns_receiveWaiting _

theorem beginFrame_distinct {s : State} (inv : LookAheadInv s) :
    ((beginFrame s).scheduler.queue.map (·.cue.record)).Nodup := by
  refine List.Nodup.sublist (queueRuns_beginFrame s).records ?_
  rw [frameAdvanced_scheduler]
  exact inv.distinct

theorem StartMode.isEvent_iff (m : StartMode) : m.isEvent = true ↔ m = .onTrigger ∨ m = .onPulse := by
  cases m <;> simp [StartMode.isEvent]

theorem RefEnd.waitBase_iff (r : RefEnd) (a : Nat) : r.waitBase = some a ↔ r = .frame a ∨ r = .opened a := by
  cases r <;> simp [RefEnd.waitBase]

/-- The records whose wait has reached its limit in a frame, as R69 says. -/
theorem mem_expiredWaits (s : State) (now record : Nat) : record ∈ s.expiredWaits now ↔
    ∃ w ∈ s.evals, ∃ a, w.entry.cue.record = record ∧
      (w.entry.cue.mode = .onTrigger ∨ w.entry.cue.mode = .onPulse) ∧ w.vEff = none ∧ w.entry.eventFrame = none ∧
      0 < w.entry.cue.waitLimit ∧ (w.ref = .frame a ∨ w.ref = .opened a) ∧ a + w.entry.cue.waitLimit ≤ now := by
  have reached (w : Eval) : w.limitReached now = true ↔ ∃ a,
      (w.entry.cue.mode = .onTrigger ∨ w.entry.cue.mode = .onPulse) ∧ w.vEff = none ∧ w.entry.eventFrame = none ∧
      0 < w.entry.cue.waitLimit ∧ (w.ref = .frame a ∨ w.ref = .opened a) ∧ a + w.entry.cue.waitLimit ≤ now := by
    unfold Eval.limitReached
    cases base : w.ref.waitBase with
    | none => simp [← RefEnd.waitBase_iff, base]
    | some a => simp [← RefEnd.waitBase_iff, base, StartMode.isEvent_iff, and_assoc]
  simp only [State.expiredWaits, List.mem_map, List.mem_filter, reached]
  constructor
  · rintro ⟨w, ⟨there, a, rest⟩, record⟩
    exact ⟨w, there, a, record, rest⟩
  · rintro ⟨w, there, a, record, rest⟩
    exact ⟨w, ⟨there, a, rest⟩, record⟩

/-- What the wait limits make of an entry before any departing write is received (R69, R73). -/
def Entry.marked (records : List Nat) (e : Entry) : Entry :=
  if e.departing.isNone && records.contains e.cue.record then { e with departing := some .noTrigger } else e

theorem skipWaits_eq (records : List Nat) (s : State) : skipWaits records s =
    drainDeparting s.scheduler.queue.length (mapQueue (Entry.marked records) s) := by
  rw [skipWaits, depart]
  show drainDeparting (List.length (s.scheduler.queue.map (Entry.marked records))) _ = _
  rw [List.length_map]
  rfl

theorem Departed.outlasts {record : Nat} {d : Departure} {n : Nat} {s t : State} (h : Departed record d s)
    (runs : QueueRuns (OutlastsRun n) s t) (distinct : (s.scheduler.queue.map (·.cue.record)).Nodup)
    (grown : s.report.queue ⊆ t.report.queue) : Departed record d t := by
  rcases h with ⟨e, there, same, departing⟩ | ⟨written, gone⟩
  · obtain ⟨x, here, age⟩ := runs.stays distinct e there (.inr (.inl (by rw [departing]; simp)))
    exact .inl ⟨x, here, (congrArg Cue.record age.cue).trans same, age.departing.trans departing⟩
  · refine .inr ⟨grown written, fun x here => ?_⟩
    obtain ⟨e, there, age⟩ := runs.mem here
    rw [age.cue]
    exact gone e there

/-! ## The departing writes received, exactly -/

theorem fixTargets_queue (s : State) : (fixTargets s).scheduler.queue = s.scheduler.queue.map (Entry.hears [] s) :=
  List.map_congr_left fun e _ => by simp [Entry.hears]

/-- An entry that waits for no CLOCK entry hears of none. -/
theorem Entry.hears_of_no_wait {e : Entry} (l : List Nat) (s : State) (empty : e.clockAhead = []) :
    e.hears l s = if e.readyToFix s.now then e.fixTarget s else e := by
  have same : { e with clockAhead := e.clockAhead.filter (fun r => !l.contains r) } = e := by
    cases e
    obtain rfl := empty
    rfl
  simp only [Entry.hears, same]

/-- What an entry hears at once of two groups that leave, one after the other. -/
theorem Entry.hears_hears {s t : State} (prof : t.prof = s.prof) (now : t.now = s.now)
    (clock : t.ftg.clock = s.ftg.clock) (l m : List Nat) (e : Entry) :
    (e.hears l s).hears m t = e.hears (l ++ m) s := by
  rw [Entry.hears_congr prof now clock]
  have both (r : List Nat) : (r.filter (fun x => !l.contains x)).filter (fun x => !m.contains x) =
      r.filter (fun x => !(l ++ m).contains x) := by
    rw [List.filter_filter]
    refine List.filter_congr fun x _ => ?_
    rw [Bool.eq_iff_iff]
    simp [and_comm]
  set e' : Entry := { e with clockAhead := e.clockAhead.filter (fun x => !l.contains x) } with he'
  by_cases ready : e'.readyToFix s.now = true
  · obtain ⟨mode, unfixed, departing, empty, frame⟩ := (Entry.readyToFix_iff _ _).1 ready
    have heard : e.hears l s = e'.fixTarget s := if_pos ready
    have fixed : ¬ (e'.fixTarget s).readyToFix s.now = true := by
      rw [Entry.readyToFix_iff]
      rintro ⟨-, target, -⟩
      cases target
    have quiet : (e'.fixTarget s).hears m s = e'.fixTarget s := by
      rw [Entry.hears_of_no_wait (e := e'.fixTarget s) m s empty, if_neg fixed]
    have whole : e.hears (l ++ m) s = e'.hears m s := by
      simp only [Entry.hears, he', both]
    rw [heard, quiet, whole, Entry.hears_of_no_wait m s empty, if_pos ready]
  · have heard : e.hears l s = e' := if_neg ready
    rw [heard]
    simp only [Entry.hears, he', both]

/-- The departures still in the queue, in chain order. -/
def State.departures (s : State) : List (Nat × Departure) :=
  s.scheduler.queue.filterMap (fun e => e.departing.map (fun d => (e.cue.record, d)))

theorem oldestDeparting_eq (s : State) : s.oldestDeparting = s.departures.head? := (List.head?_filterMap ..).symm

theorem departures_records (s : State) :
    (s.scheduler.queue.filter (·.departing.isSome)).map (·.cue.record) = s.departures.map (·.1) := by
  unfold State.departures
  induction s.scheduler.queue with
  | nil => rfl
  | cons e rest ih => cases departing : e.departing <;> simp [departing, ih]

theorem departures_leaveQueue {r : Nat} {l : List (Nat × Departure)} {d : Departure} {s : State}
    (departures : s.departures = (r, d) :: l) (distinct : (s.scheduler.queue.map (·.cue.record)).Nodup) :
    (leaveQueue r s).departures = l := by
  have others : (leaveQueue r s).departures = s.departures.filter (fun x => x.1 != r) := by
    unfold State.departures
    rw [leaveQueue_queue, List.filterMap_map]
    have told (e : Entry) : ((fun e : Entry => e.departing.map (fun d => (e.cue.record, d))) ∘ Entry.hears [r] s) e =
        e.departing.map (fun d => (e.cue.record, d)) := by
      obtain ⟨cue, departing, -⟩ := e.hears_rest [r] s
      simp only [Function.comp_apply, cue, departing]
    rw [funext told]
    induction s.scheduler.queue with
    | nil => rfl
    | cons e rest ih =>
      by_cases same : e.cue.record = r
      · cases departing : e.departing <;> simp [departing, same, ih]
      · cases departing : e.departing <;> simp [departing, same, ih]
  have once : (s.departures.map (·.1)).Nodup := by
    rw [← departures_records]
    exact distinct.sublist (List.filter_sublist.map _)
  rw [departures] at others once
  rw [others, List.filter_cons_of_neg (by simp)]
  refine List.filter_eq_self.2 fun x there => ?_
  obtain ⟨first, -⟩ := List.nodup_cons.1 once
  simpa using fun h : x.1 = r => first (List.mem_map.2 ⟨x, there, h⟩)

theorem drainDeparting_of_stuck {s : State} (h : receiveDeparting s = s) (m : Nat) : drainDeparting m s = s := by
  induction m with
  | zero => rfl
  | succ m ih => rw [drainDeparting, h, ih]

theorem receiveDeparting_of_none {s : State} (h : s.departures = []) : receiveDeparting s = s := by
  simp [receiveDeparting, oldestDeparting_eq, h]

theorem receiveDeparting_of_full {s : State} (h : s.freePlaces = 0) : receiveDeparting s = s := by
  unfold receiveDeparting
  split
  · rfl
  · exact if_neg (by rw [h]; decide)

theorem reservedPlaces_leaveQueue (record : Nat) (s : State) :
    (leaveQueue record s).reservedPlaces = s.reservedPlaces := by
  have told := (leaveQueue_told record s).1
  rw [State.reservedPlaces, State.reservedPlaces, (onlyIn_leaveQueue record s).commit, told]

/-- The departing entries' writes are received in chain order while places are free, and those entries leave together. -/
theorem drain_exact (m : Nat) {s : State} {l : List Nat} (departures : s.departures = l.map (·, .noTrigger))
    (distinct : (s.scheduler.queue.map (·.cue.record)).Nodup) (enough : l.length ≤ m) :
    let n := min s.freePlaces l.length
    let t := fixTargets (drainDeparting m s)
    t.report.queue = s.report.queue ++ (l.take n).map (fun r => .outcome ⟨r, .skipped .noTrigger 0⟩ false) ∧
    t.scheduler.queue =
      (s.scheduler.queue.filter (fun e => !(l.take n).contains e.cue.record)).map (Entry.hears (l.take n) s) ∧
    t.departures = (l.drop n).map (·, .noTrigger) := by
  have fixed (u : State) : (fixTargets u).departures = u.departures := by
    unfold State.departures
    rw [fixTargets_queue, List.filterMap_map]
    refine List.filterMap_congr fun e _ => ?_
    obtain ⟨cue, departing, -⟩ := e.hears_rest [] u
    simp only [Function.comp_apply, cue, departing]
  have stuck (u : State) (l : List Nat) (n : Nat) (zero : n = 0) (h : receiveDeparting u = u)
      (departures : u.departures = l.map (·, .noTrigger)) (k : Nat) :
      (fixTargets (drainDeparting k u)).report.queue =
        u.report.queue ++ (l.take n).map (fun r => .outcome ⟨r, .skipped .noTrigger 0⟩ false) ∧
      (fixTargets (drainDeparting k u)).scheduler.queue =
        (u.scheduler.queue.filter (fun e => !(l.take n).contains e.cue.record)).map (Entry.hears (l.take n) u) ∧
      (fixTargets (drainDeparting k u)).departures = (l.drop n).map (·, .noTrigger) := by
    subst zero
    rw [drainDeparting_of_stuck h, fixed, fixTargets_queue, (onlyIn_fixTargets u).report]
    exact ⟨(List.append_nil _).symm, by simp, departures⟩
  induction m generalizing s l with
  | zero =>
    obtain rfl := List.length_eq_zero_iff.1 (Nat.le_zero.1 enough)
    exact stuck s [] _ (Nat.min_zero _) (receiveDeparting_of_none departures) departures 0
  | succ m ih =>
    cases l with
    | nil => exact stuck s [] _ (Nat.min_zero _) (receiveDeparting_of_none departures) departures (m + 1)
    | cons r rest =>
    rcases Nat.eq_zero_or_pos s.freePlaces with full | room
    · exact stuck s (r :: rest) _ (by rw [full, Nat.zero_min]) (receiveDeparting_of_full full) departures (m + 1)
    · have oldest : s.oldestDeparting = some (r, .noTrigger) := by rw [oldestDeparting_eq, departures]; rfl
      have received := receiveDeparting_eq oldest room
      set w := enqueueOutcome r (departureWrite .noTrigger) s with hw
      have only : OnlyIn [.report] s w := onlyIn_enqueueOutcome _ _ s
      have left := onlyIn_leaveQueue r w
      set u := leaveQueue r w with hu
      have later : u.departures = rest.map (·, .noTrigger) :=
        departures_leaveQueue (s := w) (d := .noTrigger) departures distinct
      have queue : u.scheduler.queue =
          (s.scheduler.queue.filter (fun e => e.cue.record != r)).map (Entry.hears [r] s) := by
        rw [hu, leaveQueue_queue]
        rfl
      have distinct' : (u.scheduler.queue.map (·.cue.record)).Nodup :=
        distinct.sublist (queueRuns_leaveQueue (stay := fun _ => False) (fun _ _ _ _ h => h)).records
      have places : u.freePlaces = s.freePlaces - 1 := by
        rw [State.freePlaces, State.freePlaces, hu, reservedPlaces_leaveQueue, left.report]
        show _ - (s.report.queue ++ [_]).length - s.reservedPlaces = _
        rw [List.length_append, List.length_singleton]
        omega
      obtain ⟨report, queue', left'⟩ := ih later distinct' (Nat.le_of_succ_le_succ enough)
      have count : min s.freePlaces (r :: rest).length = min u.freePlaces rest.length + 1 := by
        rw [places, List.length_cons]
        omega
      rw [drainDeparting, received, count]
      simp only [List.take_succ_cons, List.drop_succ_cons]
      refine ⟨?_, ?_, left'⟩
      · rw [report, hu, left.report]
        show (s.report.queue ++ [_]) ++ _ = _
        rw [List.append_assoc]
        rfl
      · rw [queue', queue, List.filter_map, List.map_map, List.filter_filter]
        have heard : (fun e => e.hears (rest.take (min u.freePlaces rest.length)) u) ∘ Entry.hears [r] s =
            Entry.hears (r :: rest.take (min u.freePlaces rest.length)) s := by
          funext e
          exact Entry.hears_hears (left.prof.trans only.prof) (left.now.trans only.now)
            (congrArg Ftg.clock (left.ftg.trans only.ftg)) [r] _ e
        rw [show Entry.hears (rest.take (min u.freePlaces rest.length)) u ∘ Entry.hears [r] s = _ from heard]
        congr 1
        refine List.filter_congr fun e _ => ?_
        obtain ⟨cue, -⟩ := e.hears_rest [r] s
        rw [Bool.eq_iff_iff]
        simp [cue, and_comm]

theorem marked_departures {records l : List Nat} {s : State}
    (none : ∀ e ∈ s.scheduler.queue, e.departing = none)
    (picked : (s.scheduler.queue.map (·.cue.record)).filter (fun r => records.contains r) = l) :
    (mapQueue (Entry.marked records) s).departures = l.map (·, .noTrigger) := by
  show (s.scheduler.queue.map (Entry.marked records)).filterMap _ = _
  rw [← picked]
  revert none
  induction s.scheduler.queue with
  | nil => exact fun _ => rfl
  | cons e rest ih =>
    intro none
    have undeparted := none e (List.mem_cons_self ..)
    have later := ih fun x there => none x (List.mem_cons_of_mem _ there)
    by_cases there : e.cue.record ∈ records
    · have marked : e.marked records = { e with departing := some .noTrigger } := by
        simp [Entry.marked, undeparted, there]
      rw [List.map_cons, marked, List.filterMap_cons, later]
      simp [there]
    · have marked : e.marked records = e := by simp [Entry.marked, there]
      rw [List.map_cons, marked, List.filterMap_cons, later, undeparted]
      simp [there]

theorem sublist_eq_filter {l m : List Nat} (sub : l.Sublist m) (distinct : m.Nodup) :
    m.filter (fun r => decide (r ∈ l)) = l := by
  have self : l.filter (fun r => decide (r ∈ l)) = l := List.filter_eq_self.2 fun r h => decide_eq_true h
  have inside : l.Sublist (m.filter (fun r => decide (r ∈ l))) := by
    have := sub.filter (fun r => decide (r ∈ l))
    rwa [self] at this
  refine (inside.eq_of_length ?_).symm
  refine List.Perm.length_eq ((List.perm_ext_iff_of_nodup (distinct.sublist sub) (distinct.filter _)).2 fun r => ?_)
  rw [List.mem_filter, decide_eq_true_iff]
  exact ⟨fun h => ⟨sub.subset h, h⟩, And.right⟩

theorem Entry.marked_of_not_mem {records : List Nat} {e : Entry} (h : e.cue.record ∉ records) : e.marked records = e := by
  simp [Entry.marked, h]

theorem Entry.marked_record (records : List Nat) (e : Entry) : (e.marked records).cue = e.cue := by
  unfold Entry.marked
  split <;> rfl

theorem mapQueue_marked_records (records : List Nat) (s : State) :
    (mapQueue (Entry.marked records) s).scheduler.queue.map (·.cue.record) = s.scheduler.queue.map (·.cue.record) := by
  show (s.scheduler.queue.map (Entry.marked records)).map _ = _
  rw [List.map_map]
  exact List.map_congr_left fun e _ => congrArg Cue.record (e.marked_record records)

theorem dryEdge_markBegun (s t : State) :
    dryEdge s (markBegun t) = (dryEdge s t).setFtg { (dryEdge s t).ftg with begun := true } := by
  have same : (markBegun t).dry = t.dry := rfl
  unfold dryEdge
  rw [same]
  split <;> rfl

section
variable {u : State} (distinct : (u.scheduler.queue.map (·.cue.record)).Nodup)
include distinct

theorem skipWaits_distinct : ((skipWaits (u.expiredWaits u.now) u).scheduler.queue.map (·.cue.record)).Nodup := by
  rw [skipWaits_eq]
  refine distinct.sublist ?_
  rw [← mapQueue_marked_records (u.expiredWaits u.now) u]
  exact (queueRuns_drainDeparting _ _).records

theorem schedule_distinct : ((scheduleAtFrameStart u).scheduler.queue.map (·.cue.record)).Nodup :=
  (skipWaits_distinct distinct).sublist (queueRuns_fixTargets (stay := fun _ => True) _).records

theorem expired_departed {r : Nat} (expired : r ∈ u.expiredWaits u.now) :
    Departed r .noTrigger (scheduleAtFrameStart u) := by
  obtain ⟨w, there, -, record, -⟩ := (mem_expiredWaits u u.now r).1 expired
  obtain ⟨queued, undeparted⟩ := mem_evals_entry there
  obtain ⟨picked, -⟩ := depart_spec (fun e => (u.expiredWaits u.now).contains e.cue.record) .noTrigger distinct
  have departed := picked w.entry queued undeparted (by rw [record]; simpa using expired)
  rw [record] at departed
  refine departed.outlasts (n := u.now) (queueRuns_fixTargets _) (skipWaits_distinct distinct) ?_
  have same := congrArg Report.queue (onlyIn_fixTargets (skipWaits (u.expiredWaits u.now) u)).report
  exact fun _ h => same.symm ▸ h

theorem unexpired_stays {e : Entry} (there : e ∈ u.scheduler.queue) (undeparted : e.departing = none)
    (unexpired : e.cue.record ∉ u.expiredWaits u.now) :
    ∃ x ∈ (scheduleAtFrameStart u).scheduler.queue, x.cue = e.cue ∧ x.departing = none := by
  obtain ⟨-, -, stays, -⟩ := depart_spec (fun e => (u.expiredWaits u.now).contains e.cue.record) .noTrigger distinct
  obtain ⟨x, here, cue, departing, -⟩ := stays e there undeparted (by simpa using unexpired)
  obtain ⟨cue', departing', -⟩ := x.hears_rest [] (skipWaits (u.expiredWaits u.now) u)
  refine ⟨x.hears [] (skipWaits (u.expiredWaits u.now) u), ?_, cue'.trans cue, ?_⟩
  · rw [scheduleAtFrameStart, fixTargets_queue]
    exact List.mem_map_of_mem here
  · rw [departing', departing, undeparted]

theorem expired_exact {l : List Nat} (undeparted : ∀ e ∈ u.scheduler.queue, e.departing = none)
    (sub : l.Sublist (u.scheduler.queue.map (·.cue.record))) (listed : ∀ r, r ∈ l ↔ r ∈ u.expiredWaits u.now) :
    let n := min u.freePlaces l.length
    let v := scheduleAtFrameStart u
    v.report.queue = u.report.queue ++ (l.take n).map (fun r => .outcome ⟨r, .skipped .noTrigger 0⟩ false) ∧
    (∀ e ∈ u.scheduler.queue, e.cue.record ∉ u.expiredWaits u.now →
      ∃ x ∈ v.scheduler.queue, ClocksGone (l.take n) none u e x) ∧
    (v.scheduler.queue.filter (·.departing.isSome)).map (·.cue.record) = l.drop n := by
  intro n v
  set w := mapQueue (Entry.marked (u.expiredWaits u.now)) u with hw
  have picked : (u.scheduler.queue.map (·.cue.record)).filter (fun r => (u.expiredWaits u.now).contains r) = l := by
    rw [← sublist_eq_filter sub distinct]
    refine List.filter_congr fun r _ => ?_
    rw [Bool.eq_iff_iff, List.contains_iff_mem, decide_eq_true_iff, listed]
  have enough : l.length ≤ u.scheduler.queue.length := by simpa using sub.length_le
  obtain ⟨report, queue, departures⟩ := drain_exact u.scheduler.queue.length (marked_departures undeparted picked)
    (by rw [mapQueue_marked_records]; exact distinct) enough
  have schedule : v = fixTargets (drainDeparting u.scheduler.queue.length w) :=
    congrArg fixTargets (skipWaits_eq (u.expiredWaits u.now) u)
  rw [← hw, ← schedule] at report queue departures
  refine ⟨report, fun e there unexpired => ⟨e.hears (l.take n) w, ?_, ?_⟩, ?_⟩
  · rw [queue]
    refine List.mem_map_of_mem (List.mem_filter.2 ⟨?_, ?_⟩)
    · rw [← Entry.marked_of_not_mem unexpired]
      exact List.mem_map_of_mem there
    · have out : e.cue.record ∉ l.take (min w.freePlaces l.length) := fun h => unexpired ((listed _).1 (List.mem_of_mem_take h))
      exact by simpa using out
  · exact (clocksGone_hears_none _ w e).congr rfl rfl rfl
  · rw [departures_records, departures, List.map_map]
    exact List.map_id _

end

theorem dryEdge_self (s : State) : dryEdge s s = s := by
  unfold dryEdge
  cases s.dry <;> rfl

theorem waitLimitSkip_taken {s t : State} {record : Nat} (running : s.ftg.running = true) (fresh : s.ftg.begun = false)
    (expired : record ∈ (beginFrame s).expiredWaits (s.now + 1)) (ran : exec .frameStart s = .next t) :
    exec (.waitLimitSkip record) s = .next (t.setFtg { t.ftg with begun := true }) := by
  have taken : waitLimitSkip record s = markBegun (wholeFrameStart s) := if_pos ⟨running, fresh, expired⟩
  rw [exec_frameStart_whole running fresh] at ran
  rw [← Host.Outcome.next.inj ran, ← dryEdge_markBegun, ← taken]
  rfl

theorem waitLimitSkip_idle {s : State} {record : Nat}
    (h : s.ftg.running = false ∨ s.ftg.begun = true ∨ record ∉ (beginFrame s).expiredWaits (s.now + 1)) :
    exec (.waitLimitSkip record) s = .next s := by
  have idle : waitLimitSkip record s = s := by
    refine if_neg ?_
    rintro ⟨running, fresh, expired⟩
    rcases h with stopped | begun | unmet
    · rw [running] at stopped
      cases stopped
    · rw [fresh] at begun
      cases begun
    · exact unmet expired
  show Host.Outcome.next (dryEdge s (waitLimitSkip record s)) = _
  rw [idle, dryEdge_self]

theorem frameStart_departed {s t : State} (running : s.ftg.running = true) (fresh : s.ftg.begun = false)
    (ran : exec .frameStart s = .next t) (inv : LookAheadInv s) {r : Nat}
    (expired : r ∈ (beginFrame s).expiredWaits (s.now + 1)) : Departed r .noTrigger t := by
  obtain ⟨t', ran', done⟩ := frameStart_ends running fresh
  obtain rfl : t = t' := Host.Outcome.next.inj (ran.symm.trans ran')
  have distinct := beginFrame_distinct inv
  have runs := frameStart_queueRuns running fresh ran
  have scanned : (frameScanned s).report.queue = (scheduleAtFrameStart (beginFrame s)).report.queue :=
    congrArg Report.queue (onlyIn_scanAtFrameStart _).report
  have departed : Departed r .noTrigger (scheduleAtFrameStart (beginFrame s)) :=
    expired_departed distinct (by rw [beginFrame_now]; exact expired)
  refine departed.outlasts runs (schedule_distinct distinct) ?_
  rw [← scanned]
  exact ((handsOn_untilRefresh s).trans done.handsOn).1.subset

/-- Settles O42. -/
theorem expiredWaitIsSkipped : Obligations.ExpiredWaitIsSkipped := by
  intro s record
  have now : (beginFrame s).now = s.now + 1 := beginFrame_now s
  have isExpired (r : Nat) := mem_expiredWaits (beginFrame s) (s.now + 1) r
  dsimp only
  simp only [← isExpired]
  refine ⟨fun running fresh met => ?met, fun unmet => waitLimitSkip_idle unmet, fun inv => ⟨fun e there undeparted stays => ?stays,
    fun l none sub listed => ?exact⟩⟩
  case met =>
    obtain ⟨t, ran, done⟩ := frameStart_ends running fresh
    exact ⟨t, ran, waitLimitSkip_taken running fresh met ran, done.now.trans (untilRefresh_now s),
      fun inv r met => frameStart_departed running fresh ran inv met⟩
  case stays =>
    rw [← now] at stays
    exact unexpired_stays (beginFrame_distinct inv) there undeparted stays
  case exact =>
    rw [← now] at listed ⊢
    exact expired_exact (beginFrame_distinct inv) none sub listed

end Sys2Proof.Machine
end

section
/-! The frame start as the beat: frame number and show clock, the AT targets fixed at it, and the tile columns (R2, R5, R14,
R65, R101 to R107, R118, R135). -/

set_option Elab.async false

namespace Sys2Proof.Machine

/-! ## AT entries over a frame start (R65) -/

theorem Entry.Ages.congr {p p' : Profile} {n n' : Nat} {clock clock' : Clock} {e x : Entry}
    (h : e.Ages p n clock x) (prof : p' = p) (now : n' = n) (same : clock' = clock) : e.Ages p' n' clock' x := by
  rw [prof, now, same]
  exact h

/-- The records marked to be skipped are those of event waits; an AT entry is not among them. -/
theorem at_unexpired {u : State} (distinct : (u.scheduler.queue.map (·.cue.record)).Nodup) {e : Entry}
    (there : e ∈ u.scheduler.queue) (mode : e.cue.mode = .atTime) : e.cue.record ∉ u.expiredWaits u.now := by
  intro expired
  obtain ⟨w, evaluated, -, record, event, -⟩ := (mem_expiredWaits _ _ _).1 expired
  obtain rfl := eq_of_record_eq distinct (mem_evals_entry evaluated).1 there record
  rw [mode] at event
  rcases event with event | event <;> cases event

/-- The queue from the start of a frame to the end of the Cue Scheduler's turn, for AT entries. -/
theorem schedule_ages {u : State} (distinct : (u.scheduler.queue.map (·.cue.record)).Nodup) {e : Entry}
    (there : e ∈ u.scheduler.queue) (mode : e.cue.mode = .atTime) :
    (e.departing = none → ∃ x ∈ (scheduleAtFrameStart u).scheduler.queue, e.Ages u.prof u.now u.ftg.clock x) ∧
    (∀ x ∈ (scheduleAtFrameStart u).scheduler.queue, x.cue.record = e.cue.record →
      e.Ages u.prof u.now u.ftg.clock x) := by
  set w := mapQueue (Entry.marked (u.expiredWaits u.now)) u with hw
  have runs : QueueRuns (fun e => e.departing = none) w (scheduleAtFrameStart u) := by
    have drained := queueRuns_drainDeparting u.scheduler.queue.length w
    have all := drained.trans (queueRuns_fixTargets _) fun e x age h => age.departing.trans h
    rw [hw, ← skipWaits_eq] at all
    exact all
  have records : w.scheduler.queue.map (·.cue.record) = u.scheduler.queue.map (·.cue.record) :=
    mapQueue_marked_records _ u
  have unmarked : e ∈ w.scheduler.queue := by
    rw [← Entry.marked_of_not_mem (at_unexpired distinct there mode)]
    exact List.mem_map_of_mem there
  refine ⟨fun undeparted => ?_, fun x here same => ?_⟩
  · exact runs.stays (records ▸ distinct) e unmarked undeparted
  · obtain ⟨y, before, age⟩ := runs.mem here
    obtain rfl := eq_of_record_eq (records ▸ distinct) before unmarked
      ((congrArg Cue.record age.cue).symm.trans same)
    exact age

theorem Entry.hears_settled (z : Entry) (l : List Nat) (y : State) (unfixed : (z.hears l y).target = none) :
    ¬ (z.hears l y).readyToFix y.now = true := by
  unfold Entry.hears at unfixed ⊢
  dsimp only at unfixed ⊢
  split
  · next ready =>
    rw [if_pos ready] at unfixed
    cases unfixed
  · next ready => exact ready

/-- After the Cue Scheduler's turn an AT entry that waits for nothing has its target. -/
theorem schedule_fixes {u : State} {x : Entry} (here : x ∈ (scheduleAtFrameStart u).scheduler.queue)
    (mode : x.cue.mode = .atTime) (undeparted : x.departing = none) (empty : x.clockAhead = [])
    (due : ∀ f, x.clockFrame = some f → f ≤ u.now) : x.target ≠ none := by
  intro unfixed
  set y := skipWaits (u.expiredWaits u.now) u with hy
  have now : y.now = u.now := (onlyIn_skipWaits _ u).now
  rw [scheduleAtFrameStart, fixTargets_queue] at here
  obtain ⟨z, -, rfl⟩ := List.mem_map.1 here
  exact z.hears_settled [] y unfixed ((Entry.readyToFix_iff _ _).2 ⟨mode, unfixed, undeparted, empty, now ▸ due⟩)

/-- What a frame start makes of an AT entry not departing that waits for no CLOCK entry, in the frame `n` then new. -/
theorem frameStart_at {s t : State} (running : s.ftg.running = true) (fresh : s.ftg.begun = false)
    (ran : exec .frameStart s = .next t) (inv : LookAheadInv s) {e : Entry} (there : e ∈ s.scheduler.queue)
    (mode : e.cue.mode = .atTime) (undeparted : e.departing = none) :
    (∀ x ∈ t.scheduler.queue, x.cue.record = e.cue.record → e.Ages s.prof (s.now + 1) t.ftg.clock x ∧
      (e.clockAhead = [] → (∀ f, e.clockFrame = some f → f ≤ s.now + 1) → x.target ≠ none)) ∧
    (OutlastsRun (s.now + 1) e → ∃ x ∈ t.scheduler.queue, e.Ages s.prof (s.now + 1) t.ftg.clock x) := by
  have late := frameStart_queueRuns running fresh ran
  have early := queueRuns_beginFrame s
  have distinct := beginFrame_distinct inv
  have distinct' := schedule_distinct distinct
  have before := frameAdvanced_scheduler s
  have prof : (beginFrame s).prof = s.prof := (onlyIn_beginFrame s).prof
  have now := beginFrame_now s
  have prof' := scheduled_prof s
  have now' := scheduled_now s
  have clock' : (scheduleAtFrameStart (beginFrame s)).ftg.clock = (beginFrame s).ftg.clock :=
    congrArg Ftg.clock (onlyIn_scheduleAtFrameStart (beginFrame s)).ftg
  have queued : e ∈ (frameAdvanced s).scheduler.queue := by rw [before]; exact there
  have distinct₀ : ((frameAdvanced s).scheduler.queue.map (·.cue.record)).Nodup := by rw [before]; exact inv.distinct
  generalize frameAdvanced s = b at *
  generalize beginFrame s = u at *
  have settled {x : Entry} := schedule_fixes (u := u) (x := x)
  have ages {x : Entry} := schedule_ages (u := u) (e := x) distinct
  generalize scheduleAtFrameStart u = v at *
  have clock : v.ftg.clock = t.ftg.clock := late.clock.symm
  have clock₁ : u.ftg.clock = t.ftg.clock := clock'.symm.trans clock
  have first {a x : Entry} (age : a.Ages b.prof b.now b.ftg.clock x) : a.Ages s.prof (s.now + 1) t.ftg.clock x :=
    age.congr (prof.symm.trans early.prof) (now.symm.trans early.now) (clock₁.symm.trans early.clock)
  have second {a x : Entry} (age : a.Ages u.prof u.now u.ftg.clock x) : a.Ages s.prof (s.now + 1) t.ftg.clock x :=
    age.congr prof.symm now.symm clock₁.symm
  have third {a x : Entry} (age : a.Ages v.prof v.now v.ftg.clock x) : a.Ages s.prof (s.now + 1) t.ftg.clock x :=
    age.congr prof'.symm now'.symm clock.symm
  refine ⟨fun x here same => ?back, fun outlasts => ?forth⟩
  case back =>
    obtain ⟨y, inV, age⟩ := late.mem here
    have age := third age
    obtain ⟨z, inU, early'⟩ : ∃ z ∈ u.scheduler.queue, e.Ages s.prof (s.now + 1) t.ftg.clock z ∧
        z.cue.record = e.cue.record := by
      obtain ⟨z, inU, older⟩ := early.stays distinct₀ e queued undeparted
      exact ⟨z, inU, first older, congrArg Cue.record older.cue⟩
    obtain ⟨older, record⟩ := early'
    have middle := second ((ages inU (older.cue ▸ mode)).2 y inV
      ((congrArg Cue.record age.cue).symm.trans (same.trans record.symm)))
    have young := older.trans middle
    refine ⟨young.trans age, fun empty due => ?_⟩
    have fixed : y.target ≠ none := by
      have empty' : y.clockAhead = [] := List.sublist_nil.1 (empty ▸ young.ahead)
      refine settled inV (young.cue ▸ mode) (young.departing.trans undeparted) empty' ?_
      rw [young.frame empty, now]
      exact due
    rcases age.target with ⟨target, -⟩ | ⟨-, unfixed, -⟩
    · rw [target]
      exact fixed
    · exact absurd unfixed fixed
  case forth =>
    obtain ⟨z, inU, older⟩ := early.stays distinct₀ e queued undeparted
    have older := first older
    obtain ⟨y, inV, middle⟩ := (ages inU (older.cue ▸ mode)).1 (older.departing.trans undeparted)
    have young := older.trans (second middle)
    obtain ⟨x, here, age⟩ := late.stays distinct' y inV (outlasts.ages young)
    exact ⟨x, here, young.trans (third age)⟩

/-! ## Frame number and show clock (R2, R7, R14) -/

theorem Ftg.advance_rest (rate : Nat) (f : Ftg) : ∃ sets, f.advance rate =
    { f with frame := f.frame + 1, clock := (f.advance rate).clock, alignPending := false, clockSets := sets } := by
  unfold Ftg.advance
  dsimp only
  split
  · exact ⟨_, rfl⟩
  · exact ⟨_, rfl⟩

theorem Ftg.advance_clock_of_set {f : Ftg} {e : ClockSet} (rate : Nat)
    (found : f.clockSets.find? (fun e => e.visible == f.frame + 1) = some e) : (f.advance rate).clock = e.value := by
  unfold Ftg.advance
  dsimp only
  rw [found]

theorem Ftg.advance_clock_of_align {f : Ftg} (rate : Nat) (noSet : ∀ e ∈ f.clockSets, e.visible ≠ f.frame + 1)
    (pending : f.alignPending = true) : (f.advance rate).clock = (f.clock.increment rate).align rate := by
  have none : f.clockSets.find? (fun e => e.visible == f.frame + 1) = none := by
    rw [List.find?_eq_none]
    simpa using noSet
  unfold Ftg.advance
  dsimp only
  rw [none]
  exact if_pos pending

theorem Clock.bumpSeconds_eq (c : Clock) : { c.bumpSeconds with frame := 0 } = nextSecond c := by
  unfold nextSecond
  split
  · next early => rw [Clock.bumpSeconds_of_seconds_lt early]
  · next full =>
    have full := Nat.not_lt.1 full
    split
    · next early => rw [Clock.bumpSeconds_of_minutes_lt full early]
    · next full' =>
      have full' := Nat.not_lt.1 full'
      split
      · next early => rw [Clock.bumpSeconds_of_hours_lt full full' early]
      · next late => rw [Clock.bumpSeconds_of_hours_top full full' (Nat.not_lt.1 late)]

theorem Clock.align_spec (rate : Nat) (c : Clock) :
    (c.frame = 0 → c.align rate = c) ∧
    (c.frame ≠ 0 → c.frame < rate / 2 → c.align rate = { c with frame := 0 }) ∧
    (c.frame ≠ 0 → rate / 2 ≤ c.frame → c.align rate = nextSecond c) := by
  refine ⟨fun zero => if_pos zero, fun some early => ?_, fun some late => ?_⟩
  · rw [Clock.align, if_neg some, if_pos early]
  · rw [Clock.align, if_neg some, if_neg (Nat.not_lt.2 late)]
    exact c.bumpSeconds_eq

theorem frameStart_ftg {s t : State} (running : s.ftg.running = true) (fresh : s.ftg.begun = false)
    (ran : exec .frameStart s = .next t) : ∃ sets, t.ftg = { s.ftg.advance s.prof.rate with clockSets := sets } := by
  rw [exec_frameStart_whole running fresh] at ran
  rw [← Host.Outcome.next.inj ran, (onlyIn_dryEdge_after _ _).ftg]
  exact wholeFrameStart_ftg s

/-! ## The Register Window -/

theorem onlyIn_endJob_trim (outcome : JobOutcome) (s : State) : OnlyIn [.store, .report] s (endJob .trim outcome s) :=
  ((onlyIn_setStore s _).mono (by decide)).trans ((onlyIn_setReport _ _).mono (by decide))

/-- A completion leaves the Register Window alone. -/
theorem onlyIn_dueEffect_unseen (e : DueEntry) (s : State) : OnlyIn [.store, .report] s (dueEffect e s).1 := by
  unfold dueEffect
  split
  · exact .refl _ s
  · exact .refl _ s
  · exact (onlyIn_setReport s _).mono (by decide)
  · split
    · unfold offerTrimJob placeJob
      split
      · exact .refl _ s
      · split
        · dsimp only
          split
          · exact onlyIn_endJob_trim _ s
          · exact (onlyIn_setStore s _).mono (by decide)
        · exact onlyIn_endJob_trim _ s
    · exact .refl _ s

theorem onlyIn_completeReaching_unseen (s : State) (x : Reaching) :
    OnlyIn [.commit, .store, .report] s (completeReaching s x) := by
  cases x with
  | scene e => exact (onlyIn_showScene e s).mono (by decide)
  | due e =>
    unfold completeReaching completeDue
    exact (((onlyIn_setCommit s _).mono (by decide)).trans ((onlyIn_dueEffect_unseen e _).mono (by decide))).trans
      ((onlyIn_handOn _ _ _).mono (by decide))

theorem onlyIn_frameReleased_unseen (s : State) : OnlyIn [.commit, .store, .report] (frameScanned s) (frameReleased s) :=
  (onlyIn_foldl _ onlyIn_completeReaching_unseen _ _).trans ((onlyIn_releaseScenes _).mono (by decide))

theorem Window.finish_resetTaken (c : Command) (r : Result) (w : Window) :
    (w.finish c r).resetTaken = w.resetTaken := by
  unfold Window.finish
  split
  · split <;> rfl
  · rfl

theorem completeStop_resetTaken (s : State) : (completeStop s).window.resetTaken = s.window.resetTaken := by
  unfold completeStop
  split
  · exact Window.finish_resetTaken _ _ _
  · rfl

theorem untilRefresh_resetTaken (s : State) : (untilRefresh s).window.resetTaken = false := by
  rw [(onlyIn_untilRefresh_frameStopped s).window, frameStopped, completeStop_resetTaken,
    (onlyIn_frameReleased_unseen s).window]
  rfl

/-! ## Links and engines (R118, R119, R135, R138) -/

theorem laneBegun_eq (c : Content) : Lane.prepared c = laneBegun c := by
  have same : (if 0 < c.rIn ∧ 0 < c.cIn then c.words else 0) = if c.rIn = 0 ∨ c.cIn = 0 then 0 else c.words := by
    split <;> split <;> omega
  rw [Lane.prepared, laneBegun, same]

theorem Link.stepGraced_identify (n grace horizon : Nat) (l : Link) :
    (l.stepGraced n grace horizon).1.identifyDue = l.identifyDue ∧
    ((l.stepGraced n grace horizon).1.state = .training → l.state = .training) := by
  have grace' : (l.applyGrace n).identifyDue = l.identifyDue ∧ (l.applyGrace n).state = l.state := by
    unfold Link.applyGrace
    split
    · split <;> exact ⟨rfl, rfl⟩
    · exact ⟨rfl, rfl⟩
  obtain ⟨identify, state⟩ := grace'
  unfold Link.stepGraced
  dsimp only
  split
  · exact ⟨identify, fun h => by cases h⟩
  · split
    · split
      · exact ⟨identify, fun h => by cases h⟩
      · exact ⟨identify, fun h => state ▸ h⟩
    · exact ⟨identify, fun h => state ▸ h⟩

/-- An IDENTIFY is owed to the new frame when it was owed before, or when the link enters TRAINING at its start. -/
theorem Link.atFrameStart_identify (n grace horizon : Nat) (l : Link) :
    (l.atFrameStart n grace horizon).1.identifyDue = (l.identifyDue ||
      decide ((l.atFrameStart n grace horizon).1.state = .training ∧ l.state ≠ .training)) := by
  by_cases graced : l.state.graced = true
  · rw [Link.atFrameStart_graced graced]
    obtain ⟨identify, state⟩ := l.stepGraced_identify n grace horizon
    have never : ¬ ((l.stepGraced n grace horizon).1.state = .training ∧ l.state ≠ .training) := fun h => h.2 (state h.1)
    simp only [identify, never, decide_false, Bool.or_false]
  · cases state : l.state with
    | absent => simp only [Link.atFrameStart, state]; split <;> simp [Link.toTraining]
    | training => simp only [Link.atFrameStart, state]; split <;> simp
    | lost =>
      simp only [Link.atFrameStart, state]
      split
      · simp [Link.toTraining]
      · split <;> simp
    | joining => exact absurd (by rw [state]; rfl) graced
    | inStep => exact absurd (by rw [state]; rfl) graced
    | misfit => exact absurd (by rw [state]; rfl) graced

/-- The engine of a tile column at the end of a frame start. -/
theorem linked_prepare (p : Profile) (n k : Nat) (x : Tile) (c : Scan) (l : LinkState) :
    (x.linked p n k).engine.prepare c l =
      { main := laneBegun (match c.fade with | some f => f.new | none => c.current)
        old := c.fade.map (fun f => laneBegun f.old)
        active := decide (l = .joining ∨ l = .inStep)
        sendRow := 0, sendCol := 0, underruns := x.engine.underruns
        flight := x.engine.flight.map (fun b => { b with stale := true }) } := by
  have carries : l.carries = decide (l = .joining ∨ l = .inStep) := by
    rw [Bool.eq_iff_iff, LinkState.carries_iff, decide_eq_true_iff]
  have stale : (x.linked p n k).engine.underruns = x.engine.underruns ∧
      (x.linked p n k).engine.flight.map (fun b => { b with stale := true }) =
        x.engine.flight.map (fun b => { b with stale := true }) := by
    unfold Tile.linked
    split
    · exact ⟨rfl, rfl⟩
    · split
      · exact ⟨rfl, rfl⟩
      · dsimp only
        split
        · exact ⟨rfl, rfl⟩
        · refine ⟨rfl, ?_⟩
          rw [Engine.deactivate, Engine.staleAll, List.map_map]
          rfl
  obtain ⟨underruns, flight⟩ := stale
  rw [Engine.prepare, Engine.staleAll, flight, underruns, carries, laneBegun_eq]
  simp only [laneBegun_eq]
  rfl

/-- Settles O41. -/
theorem frameStartAdvancesTheBeat : Obligations.FrameStartAdvancesTheBeat := by
  refine fun s => ⟨fun running fresh => ?whole, fun running begun => ?taken, fun stopped => ?stopped⟩
  case whole =>
    obtain ⟨t, ran, done⟩ := frameStart_ends running fresh
    obtain ⟨sets, ftg⟩ := frameStart_ftg running fresh ran
    obtain ⟨sets', advanced⟩ := s.ftg.advance_rest s.prof.rate
    have clock : t.ftg.clock = (s.ftg.advance s.prof.rate).clock := (congrArg Ftg.clock ftg).trans rfl
    have rest : t.ftg = { s.ftg with frame := s.now + 1, clock := t.ftg.clock, alignPending := false, clockSets := sets } := by
      rw [ftg, advanced]
      rfl
    have resetTaken : t.window.resetTaken = false := by
      obtain ⟨-, -, -, -, same⟩ := done.window
      exact same.trans (untilRefresh_resetTaken s)
    refine ⟨t, ran, congrArg Ftg.frame rest, ?_, ?_, ?_, ?_, ?_, congrArg Ftg.alignPending rest, resetTaken,
      fun e found => clock.trans (Ftg.advance_clock_of_set _ found), fun noSet => ⟨fun idle => ?_, fun pending => ?_⟩,
      fun inv e there mode unfixed undeparted empty => ?atEntries, fun k small there => ?column, ?_⟩
    · exact (congrArg Ftg.running rest).trans running
    · exact (congrArg Ftg.begun rest).trans fresh
    · exact (congrArg Ftg.latch rest).trans rfl
    · exact (congrArg Ftg.trigger rest).trans rfl
    · exact (congrArg Ftg.pulse rest).trans rfl
    · exact clock.trans (Ftg.advance_clock_of_untouched _ noSet idle)
    · rw [clock, Ftg.advance_clock_of_align _ noSet pending]
      exact Clock.align_spec _ _
    case atEntries =>
      obtain ⟨back, forth⟩ := frameStart_at running fresh ran inv there mode undeparted
      refine ⟨fun now => ⟨fun x here same => ?_, fun scene => ?_⟩, fun f frame later => ?_⟩
      · obtain ⟨age, fixed⟩ := back x here same
        rcases age.target with ⟨target, -⟩ | ⟨-, -, -, target, late⟩
        · exact absurd (target.trans unfixed) (fixed empty fun f frame => by
            obtain rfl := Option.some.inj (now.symm.trans frame)
            exact le_rfl)
        · exact ⟨target, late⟩
      · obtain ⟨x, here, age⟩ := forth (.inl scene)
        exact ⟨x, here, age.cue⟩
      · obtain ⟨x, here, age⟩ := forth (.inr (.inr ⟨mode, unfixed, empty, f, frame, later⟩))
        refine ⟨x, here, age.cue, ?_⟩
        rcases age.target with ⟨target, -⟩ | ⟨-, -, due, -⟩
        · exact target.trans unfixed
        · exact absurd (due empty f frame) (Nat.not_le.2 later)
    case column =>
      obtain ⟨y, scanned, link, scan, stopAt, engine, kept, added⟩ := done.column small there
      refine ⟨fun goesOn => ?_, fun stops => ?_, fun sw waits later stays => ?_, ?_, fun below due => ?_,
        fun below ahead => ?_, fun past => ?_⟩
      · obtain ⟨taken, still⟩ := scanned.runs goesOn
        exact ⟨scan.trans taken, stopAt.trans still⟩
      · obtain ⟨cleared, gone, noScene⟩ := scanned.stops stops
        refine ⟨scan.trans cleared, stopAt.trans gone, fun sw here => ?_⟩
        exact (added sw here).elim (noScene sw) id
      · refine kept.subset (scanned.switches.mem (List.mem_filter.2 ⟨waits, by simpa using later⟩) fun scene => ?_)
        obtain ⟨goesOn, noScene⟩ := stays scene
        exact ⟨goesOn, fun x here now => noScene x (List.mem_filter.2 ⟨here, by simpa using now⟩)⟩
      · refine engine.trans ?_
        rw [scanned.engine, scan, link]
        exact linked_prepare _ _ _ _ _ _
      · have acts : (t.tile k).link =
            ((s.tile k).link.atFrameStart s.now s.prof.grace (s.prof.lmax + 1)).1.sendHeader (s.now + 1) := by
          rw [link, scanned.link, Tile.linked, if_neg (Nat.not_le.2 below), if_neg (by rw [due]; decide)]
        rw [acts]
        refine ⟨rfl, rfl, rfl, ?_⟩
        rw [Link.sendHeader, Link.atFrameStart_identify]
        rfl
      · rw [link, scanned.link, Tile.linked, if_neg (Nat.not_le.2 below), if_pos ahead]
      · rw [link, scanned.link, Tile.linked, if_pos past]
    · have parts := onlyIn_dryEdge s (onlyIn_frameStart s) (by decide)
      rw [exec_frameStart] at ran
      exact Host.Outcome.next.inj ran ▸ parts
  case taken =>
    rw [exec_frameStart, frameStart_of_begun running begun]
    refine congrArg Host.Outcome.next ?_
    have same : (s.setFtg { s.ftg with begun := false }).dry = s.dry := rfl
    unfold dryEdge
    rw [same]
    cases s.dry <;> rfl
  case stopped =>
    rw [exec_frameStart, frameStart_of_stopped stopped, dryEdge_self]

end Sys2Proof.Machine
end

section
/-! The writes and the showing table over a frame start up to the scan contexts (R52, R79, R90, R97). -/

set_option Elab.async false

namespace Sys2Proof.Machine

/-! ## Waiting writes received -/

/-- From `s` to `t` waiting writes have been received and an attempt may have ended: beside these, the Report Writer and the
Commit Unit stand, but for the showing table, and no RELEASED has been handed on. -/
structure Received (s t : State) : Prop where
  report : t.report = { s.report with queue := t.report.queue, holdFaults := t.report.holdFaults }
  commit : t.commit = { s.commit with
    handoff := t.commit.handoff, attempt := t.commit.attempt, showing := t.commit.showing }
  released : ∀ r, handedCount r .released t = handedCount r .released s

theorem Received.refl (s : State) : Received s s := ⟨rfl, rfl, fun _ => rfl⟩

theorem Received.trans {s t u : State} (h : Received s t) (g : Received t u) : Received s u where
  report := by rw [g.report, h.report]
  commit := by rw [g.commit, h.commit]
  released r := (g.released r).trans (h.released r)

theorem OnlyIn.received {ps : List Part} {s t : State} (h : OnlyIn ps s t) (hc : Part.commit ∉ ps := by decide)
    (hr : Part.report ∉ ps := by decide) : Received s t := by
  have commit := h.commit hc
  have report := h.report hr
  exact ⟨by rw [report], by rw [commit], fun r => by rw [handedCount, handedCount, commit, report]⟩

theorem received_foldl {α : Type} {f : State → α → State} (h : ∀ s x, Received s (f s x)) (l : List α) (s : State) :
    Received s (l.foldl f s) := by
  induction l generalizing s with
  | nil => exact .refl s
  | cons x rest ih => exact (h s x).trans (ih _)

theorem received_enqueue {item : QueueItem} (other : ∀ r, item ≠ .outcome ⟨r, .released⟩ false) (s : State) :
    Received s (enqueue item s) where
  report := rfl
  commit := rfl
  released r := by
    show (s.report.queue ++ [item]).count _ + _ = _
    rw [List.count_append, List.count_singleton, if_neg (by simpa using other r), Nat.add_zero]
    rfl

theorem received_receiveDeparting (s : State) : Received s (receiveDeparting s) := by
  rcases receiveDeparting_cases s with h | ⟨r, d, -, -, h⟩ <;> rw [h]
  · exact .refl s
  · exact (received_enqueue (fun r h => by cases d <;> simp [Departure.outcome] at h) s).trans
      (onlyIn_leaveQueue r _).received

theorem received_drainDeparting (n : Nat) (s : State) : Received s (drainDeparting n s) := by
  induction n generalizing s with
  | zero => exact .refl s
  | succ n ih => exact (received_receiveDeparting s).trans (ih _)

theorem received_depart (pick : Entry → Bool) (why : Departure) (s : State) : Received s (depart pick why s) :=
  (onlyIn_mapQueue _ s).received.trans (received_drainDeparting _ _)

theorem received_receiveHoldFault (s : State) : Received s (receiveHoldFault s) := by
  unfold receiveHoldFault
  split
  · exact .refl s
  · next f rest waiting =>
    split
    · have dropped : Received s (s.setReport { s.report with holdFaults := rest }) := ⟨rfl, rfl, fun _ => rfl⟩
      exact dropped.trans (received_enqueue (item := .fault f false) (fun r h => by cases h) _)
    · exact .refl s

theorem received_receiveHandoff (s : State) : Received s (receiveHandoff s) := by
  unfold receiveHandoff
  split
  · exact .refl s
  · next w rest waiting =>
    split
    · refine ⟨rfl, rfl, fun r => ?_⟩
      show (s.report.queue ++ [QueueItem.outcome w false]).count _ + rest.count _ = _
      rw [handedCount, waiting, List.count_append, List.count_singleton, List.count_cons]
      have same : ((QueueItem.outcome w false == QueueItem.outcome ⟨r, .released⟩ false) = true) ↔
          (w == ⟨r, .released⟩) = true := by simp
      by_cases h : (w == (⟨r, .released⟩ : OutcomeWrite)) = true
      · rw [if_pos h, if_pos (same.2 h)]
        omega
      · rw [if_neg h, if_neg (mt same.1 h)]
        omega
    · exact .refl s

theorem received_receiveWaiting (s : State) : Received s (receiveWaiting s) :=
  ((received_drainDeparting _ s).trans (received_foldl (fun u _ => received_receiveHoldFault u) _ _)).trans
    (received_foldl (fun u _ => received_receiveHandoff u) _ _)

theorem received_endAttempt (s : State) : Received s (endAttempt s) := ⟨rfl, rfl, fun _ => rfl⟩

theorem received_beginFrame (s : State) : Received s (beginFrame s) :=
  ((onlyIn_linksAtFrameStart s).received.trans (onlyIn_setFtg _ _).received).trans
    ((received_endAttempt _).trans (received_receiveWaiting _))

theorem received_scheduleAtFrameStart (s : State) : Received s (scheduleAtFrameStart s) :=
  (received_depart _ _ s).trans (onlyIn_fixTargets _).received

theorem received_setShowing (l : List ShowEntry) (s : State) :
    Received s (s.setCommit { s.commit with showing := l }) := ⟨rfl, rfl, fun _ => rfl⟩

theorem received_takeSwitch (k : Nat) (s : State) (sw : Switch) : Received s (takeSwitch k s sw) := by
  unfold takeSwitch
  split
  · rw [sceneTaken]
    exact ((onlyIn_updTile k _ s).received.trans (received_setShowing _ _)).trans (onlyIn_updTile k _ _).received
  · exact (onlyIn_updTile k _ s).received
  · exact (onlyIn_updTile k _ s).received

theorem received_takeStop (k : Nat) (s : State) : Received s (takeStop k s) := by
  unfold takeStop
  split
  · exact (onlyIn_updTile k _ s).received.trans (received_setShowing _ _)
  · exact .refl s

theorem received_scanTile (k : Nat) (s : State) : Received s (scanTile k s) :=
  ((onlyIn_updTile k _ s).received.trans (received_foldl (received_takeSwitch k) _ _)).trans (received_takeStop k _)

theorem received_scanAtFrameStart (s : State) : Received s (scanAtFrameStart s) :=
  (received_foldl (fun s k => received_scanTile k s) _ s).trans (onlyIn_setWindow _ _).received

theorem received_frameScanned (s : State) : Received s (frameScanned s) :=
  ((received_beginFrame s).trans (received_scheduleAtFrameStart _)).trans (received_scanAtFrameStart _)

/-! ## The tiles that hold an entry (R90, R97) -/

/-- The showing table `l'` is `l` with the tiles that `gives` names gone from the held sets, an entry named by its
position. -/
structure Released (gives : Nat → Nat → Prop) (l l' : List ShowEntry) : Prop where
  length : l'.length = l.length
  entry : ∀ (i : Nat) (e e' : ShowEntry), l[i]? = some e → l'[i]? = some e' →
    e' = { e with held := e'.held } ∧
    (e.held.Nodup → e'.held.Nodup ∧ ∀ k, k ∈ e'.held ↔ k ∈ e.held ∧ ¬ gives i k)

theorem Released.refl (l : List ShowEntry) : Released (fun _ _ => False) l l := by
  refine ⟨rfl, fun i e e' h h' => ?_⟩
  obtain rfl := Option.some.inj (h.symm.trans h')
  exact ⟨rfl, fun distinct => ⟨distinct, fun k => by simp⟩⟩

/-- What does not read the held set is the same of both tables. -/
theorem Released.map {β : Type} {gives : Nat → Nat → Prop} {l l' : List ShowEntry} (h : Released gives l l')
    (f : ShowEntry → β) (blind : ∀ e held, f { e with held := held } = f e) : l'.map f = l.map f := by
  refine List.ext_getElem? fun i => ?_
  rw [List.getElem?_map, List.getElem?_map]
  cases here : l[i]? with
  | none =>
    have : l'[i]? = none := by
      rw [List.getElem?_eq_none_iff, h.length]
      exact List.getElem?_eq_none_iff.1 here
    rw [this]
  | some e =>
    have small : i < l'.length := by
      rw [h.length]
      exact (List.getElem?_eq_some_iff.1 here).1
    rw [List.getElem?_eq_getElem small]
    obtain ⟨same, -⟩ := h.entry i e _ here (List.getElem?_eq_getElem small)
    rw [Option.map_some, Option.map_some, same, blind]

theorem Released.ids {gives : Nat → Nat → Prop} {l l' : List ShowEntry} (h : Released gives l l') :
    l'.map (·.id) = l.map (·.id) := h.map _ fun _ _ => rfl

theorem Released.trans {gives gives' : Nat → Nat → Prop} {l l' l'' : List ShowEntry} (h : Released gives l l')
    (g : Released gives' l' l'') : Released (fun i k => gives i k ∨ gives' i k) l l'' := by
  refine ⟨g.length.trans h.length, fun i e e'' here last => ?_⟩
  have small : i < l'.length := by
    rw [h.length]
    exact (List.getElem?_eq_some_iff.1 here).1
  have middle := List.getElem?_eq_getElem small
  obtain ⟨same, sets⟩ := h.entry i e _ here middle
  obtain ⟨same', sets'⟩ := g.entry i _ e'' middle last
  refine ⟨by rw [same', same], fun distinct => ?_⟩
  obtain ⟨distinct', held⟩ := sets distinct
  obtain ⟨distinct'', held'⟩ := sets' distinct'
  refine ⟨distinct'', fun k => ?_⟩
  rw [held', held, not_or, and_assoc]

theorem Released.congr {gives gives' : Nat → Nat → Prop} {l l' : List ShowEntry} (h : Released gives l l')
    (same : ∀ i k, i < l.length → (gives' i k ↔ gives i k)) : Released gives' l l' := by
  refine ⟨h.length, fun i e e' here here' => ?_⟩
  obtain ⟨eq, sets⟩ := h.entry i e e' here here'
  refine ⟨eq, fun distinct => ?_⟩
  obtain ⟨distinct', held⟩ := sets distinct
  refine ⟨distinct', fun k => ?_⟩
  rw [held, same i k (List.getElem?_eq_some_iff.1 here).1]

theorem released_none {gives : Nat → Nat → Prop} (l : List ShowEntry) (h : ∀ i k, ¬ gives i k) : Released gives l l :=
  (Released.refl l).congr fun i k _ => ⟨h i k, False.elim⟩

/-- One tile leaves the held set of each entry that a test of its position picks. -/
theorem released_erase {l : List ShowEntry} (k : Nat) (pick : ShowEntry → Bool) :
    Released (fun i j => j = k ∧ ∃ e, l[i]? = some e ∧ pick e = true) l
      (l.map (fun e => if pick e then { e with held := e.held.erase k } else e)) := by
  refine ⟨List.length_map .., fun i e e' here here' => ?_⟩
  rw [List.getElem?_map, here, Option.map_some] at here'
  obtain rfl := Option.some.inj here'
  split
  · next picked =>
    refine ⟨rfl, fun distinct => ⟨distinct.erase k, fun j => ?_⟩⟩
    rw [distinct.mem_erase_iff]
    simp [here, picked, and_comm]
  · next other =>
    refine ⟨rfl, fun distinct => ⟨distinct, fun j => ?_⟩⟩
    simp [here, other]

/-- The passes committed before one are those of the entries at earlier positions. -/
theorem mem_earlierPasses {l : List ShowEntry} (distinct : (l.map (·.id)).Nodup) (id : PassId) {i : Nat} {e : ShowEntry}
    (here : l[i]? = some e) :
    (earlierPasses id l).contains e.id = true ↔ ∃ j, i < j ∧ (l.map (·.id))[j]? = some id := by
  induction l generalizing i with
  | nil => simp at here
  | cons x rest ih =>
    obtain ⟨fresh, distinct'⟩ := List.nodup_cons.1 distinct
    by_cases found : x.id = id
    · have first : earlierPasses id (x :: rest) = [] := by simp [earlierPasses, found]
      rw [first]
      refine ⟨fun h => by simp at h, fun ⟨j, later, at_j⟩ => ?_⟩
      obtain ⟨j, rfl⟩ : ∃ j', j = j' + 1 := ⟨j - 1, by omega⟩
      have : id ∈ rest.map (·.id) := List.mem_of_getElem? (by simpa using at_j)
      rw [← found] at this
      exact absurd this fresh
    · have passes : earlierPasses id (x :: rest) =
          if rest.any (·.id == id) then x.id :: earlierPasses id rest else [] := by
        unfold earlierPasses
        rw [List.any_cons, show (x.id == id) = false by simpa using found, Bool.false_or,
          List.takeWhile_cons_of_pos (by simpa using found)]
        split <;> rfl
      have exists_iff : rest.any (·.id == id) = true ↔ ∃ j : Nat, (rest.map (·.id))[j]? = some id := by
        rw [← List.mem_iff_getElem?, List.any_eq_true]
        simp
      rw [passes]
      cases i with
      | zero =>
        obtain rfl : x = e := by simpa using here
        by_cases there : rest.any (·.id == id) = true
        · rw [if_pos there]
          obtain ⟨j, at_j⟩ := exists_iff.1 there
          refine ⟨fun _ => ⟨j + 1, Nat.succ_pos j, by simpa using at_j⟩, fun _ => by simp⟩
        · rw [if_neg there]
          refine ⟨fun h => by simp at h, fun ⟨j, later, at_j⟩ => absurd (exists_iff.2 ⟨j - 1, ?_⟩) there⟩
          obtain ⟨j, rfl⟩ : ∃ j', j = j' + 1 := ⟨j - 1, by omega⟩
          simpa using at_j
      | succ i =>
        have here' : rest[i]? = some e := by simpa using here
        have other : e.id ≠ x.id := by
          intro same
          refine fresh ?_
          show x.id ∈ _
          rw [← same]
          exact List.mem_map_of_mem (f := fun e : ShowEntry => e.id) (List.mem_of_getElem? here')
        have shift : (∃ j, i + 1 < j ∧ ((x :: rest).map (·.id))[j]? = some id) ↔
            ∃ j, i < j ∧ (rest.map (·.id))[j]? = some id := by
          constructor
          · rintro ⟨j, later, at_j⟩
            obtain ⟨j, rfl⟩ : ∃ j', j = j' + 1 := ⟨j - 1, by omega⟩
            exact ⟨j, by omega, by simpa using at_j⟩
          · rintro ⟨j, later, at_j⟩
            exact ⟨j + 1, by omega, by simpa using at_j⟩
        rw [shift, ← ih distinct' here']
        by_cases there : rest.any (·.id == id) = true
        · rw [if_pos there]
          simp [other]
        · rw [if_neg there, earlierPasses, if_neg there]

/-- A scene switch of a pass that stands after position `i` in a table of the given passes. -/
def Switch.OfLater (ids : List PassId) (i : Nat) (sw : Switch) : Prop :=
  ∃ n plate x0 y0 fill tr id, sw = ⟨n, .scene plate x0 y0 fill tr id⟩ ∧ ∃ j, i < j ∧ ids[j]? = some id

theorem takeSwitch_released (k : Nat) {s : State} (distinct : (s.commit.showing.map (·.id)).Nodup) (sw : Switch) :
    Released (fun i j => j = k ∧ sw.OfLater (s.commit.showing.map (·.id)) i) s.commit.showing
      (takeSwitch k s sw).commit.showing := by
  obtain ⟨n, body⟩ := sw
  cases body with
  | trim street dusk =>
    refine released_none _ fun i j h => ?_
    obtain ⟨-, _, _, _, _, _, _, _, same, -⟩ := h
    cases same
  | level set =>
    refine released_none _ fun i j h => ?_
    obtain ⟨-, _, _, _, _, _, _, _, same, -⟩ := h
    cases same
  | scene plate x0 y0 fill tr id =>
    have left := released_erase (l := s.commit.showing) k (fun e => (earlierPasses id s.commit.showing).contains e.id)
    refine left.congr fun i j small => and_congr_right fun _ => ?_
    have here := List.getElem?_eq_getElem small
    have earlier := mem_earlierPasses distinct id here
    constructor
    · intro h
      obtain ⟨_, _, _, _, _, _, _, same, later⟩ := h
      cases same
      exact ⟨_, here, earlier.2 later⟩
    · rintro ⟨e, there, picked⟩
      obtain rfl := Option.some.inj (here.symm.trans there)
      exact ⟨n, plate, x0, y0, fill, tr, id, rfl, earlier.1 picked⟩

theorem takeSwitches_released (k : Nat) (due : List Switch) {s : State}
    (distinct : (s.commit.showing.map (·.id)).Nodup) :
    Released (fun i j => j = k ∧ ∃ sw ∈ due, sw.OfLater (s.commit.showing.map (·.id)) i) s.commit.showing
      (due.foldl (takeSwitch k) s).commit.showing := by
  induction due generalizing s with
  | nil =>
    refine released_none _ fun i j h => ?_
    obtain ⟨-, _, none, -⟩ := h
    cases none
  | cons sw rest ih =>
    have first := takeSwitch_released k distinct sw
    have later := ih (s := takeSwitch k s sw) (by rw [first.ids]; exact distinct)
    rw [first.ids] at later
    refine (first.trans later).congr fun i j _ => ?_
    simp only [List.mem_cons, exists_eq_or_imp, and_or_left]

theorem takeStop_released (k : Nat) (s : State) :
    Released (fun _ j => j = k ∧ (s.tile k).stopAt = some s.now) s.commit.showing
      (takeStop k s).commit.showing := by
  unfold takeStop
  split
  · next stops =>
    have all : s.commit.showing.map (fun e => { e with held := e.held.erase k }) =
        s.commit.showing.map (fun e => if true then { e with held := e.held.erase k } else e) := rfl
    show Released _ _ (s.commit.showing.map (fun e => { e with held := e.held.erase k }))
    rw [all]
    have left := released_erase (l := s.commit.showing) k (fun _ => true)
    refine left.congr fun i j small => and_congr_right fun _ => ?_
    exact ⟨fun _ => ⟨_, List.getElem?_eq_getElem small, rfl⟩, fun _ => stops⟩
  · next goesOn => exact released_none _ fun i j h => goesOn h.2

/-- The tile that leaves a held set at its turn: it takes its stop switch, or a switch of a later scene (R90, R97). -/
def Tile.GivesUp (t : Tile) (n : Nat) (ids : List PassId) (i : Nat) : Prop :=
  t.stopAt = some n ∨ ∃ sw ∈ t.switches.filter (fun sw => sw.frame == n), sw.OfLater ids i

theorem scanTile_released (k : Nat) {s : State} (distinct : (s.commit.showing.map (·.id)).Nodup) :
    Released (fun i j => j = k ∧ (s.tile k).GivesUp s.now (s.commit.showing.map (·.id)) i) s.commit.showing
      (scanTile k s).commit.showing := by
  unfold scanTile
  set u := s.updTile k (fun t =>
    { t with scan := if s.window.resetTaken then t.scan.clear else t.scan.advanceFade,
             switches := t.switches.filter (fun sw => sw.frame != s.now) }) with hu
  set due := (s.tile k).switches.filter (fun sw => sw.frame == s.now)
  have switched := takeSwitches_released k due (s := u) distinct
  have stopped := takeStop_released k (due.foldl (takeSwitch k) u)
  have now : (due.foldl (takeSwitch k) u).now = s.now :=
    (onlyIn_foldl (takeSwitch k) (onlyIn_takeSwitch k) due u).now
  have stopAt : ((due.foldl (takeSwitch k) u).tile k).stopAt = (s.tile k).stopAt := by
    have length : u.tiles.length = s.tiles.length := State.updTile_tiles_length _ _ _
    by_cases there : k < s.tiles.length
    · obtain ⟨-, -, still, -⟩ := takeSwitches_spec due (s := u) (length ▸ there)
      rw [still, hu, State.tile_updTile_same _ there]
    · have none : due = [] := by
        rw [show due = (s.tile k).switches.filter _ from rfl, State.tile_of_length_le (Nat.le_of_not_lt there)]
        rfl
      rw [none, List.foldl_nil, State.tile_of_length_le (Nat.le_of_not_lt there),
        State.tile_of_length_le (length ▸ Nat.le_of_not_lt there)]
  rw [now, stopAt] at stopped
  refine (switched.trans stopped).congr fun i j _ => ?_
  rw [← and_or_left, or_comm]
  rfl

theorem forTiles_scanTile_released (n : Nat) {s : State} (distinct : (s.commit.showing.map (·.id)).Nodup) :
    Released (fun i j => j < n ∧ (s.tile j).GivesUp s.now (s.commit.showing.map (·.id)) i) s.commit.showing
      (forTiles n scanTile s).commit.showing := by
  induction n with
  | zero => exact released_none _ fun i j h => absurd h.1 (Nat.not_lt_zero _)
  | succ n ih =>
    have turn := scanTile_released n (s := forTiles n scanTile s) (by rw [ih.ids]; exact distinct)
    rw [ih.ids, forTiles_tile_of_le otherTilesKept_scanTile s le_rfl,
      (onlyIn_forTiles n scanTile onlyIn_scanTile s).now] at turn
    rw [forTiles_succ]
    refine (ih.trans turn).congr fun i j _ => ?_
    rw [Nat.lt_succ_iff_lt_or_eq, or_and_right]
    refine or_congr_right ⟨?_, ?_⟩
    · rintro ⟨rfl, gives⟩
      exact ⟨rfl, gives⟩
    · rintro ⟨rfl, gives⟩
      exact ⟨rfl, gives⟩

theorem receiveHandoff_showing (s : State) : (receiveHandoff s).commit.showing = s.commit.showing := by
  unfold receiveHandoff
  split
  · rfl
  · split <;> rfl

theorem receiveWaiting_showing (s : State) : (receiveWaiting s).commit.showing = s.commit.showing := by
  have writes (l : List OutcomeWrite) (u : State) :
      (l.foldl (fun u _ => receiveHandoff u) u).commit.showing = u.commit.showing := by
    induction l generalizing u with
    | nil => rfl
    | cons w rest ih => exact (ih _).trans (receiveHandoff_showing u)
  have faults (l : List FaultRecord) (u : State) : OnlyIn [.report] u (l.foldl (fun u _ => receiveHoldFault u) u) :=
    onlyIn_foldl _ (fun u _ => onlyIn_receiveHoldFault u) l u
  rw [receiveWaiting, writes, (faults _ _).commit, (onlyIn_drainDeparting _ s).commit]

theorem scheduled_showing (s : State) :
    (scheduleAtFrameStart (beginFrame s)).commit.showing = s.commit.showing := by
  have ended (u : State) : (endAttempt u).commit.showing = u.commit.showing := rfl
  rw [(onlyIn_scheduleAtFrameStart _).commit, beginFrame, receiveWaiting_showing, ended, advanceFtg, State.setFtg_commit,
    (onlyIn_linksAtFrameStart s).commit]

theorem linksAtFrameStart_lists (s : State) (k : Nat) :
    ((linksAtFrameStart s).tile k).switches = (s.tile k).switches ∧
    ((linksAtFrameStart s).tile k).stopAt = (s.tile k).stopAt := by
  by_cases there : k < s.tiles.length
  · by_cases small : k < 16
    · obtain ⟨-, switches, stopAt⟩ := Tile.linked_rest s.prof s.now k (s.tile k)
      rw [linksAtFrameStart_tile small there]
      exact ⟨switches, stopAt⟩
    · have past : Config.tileCount ≤ k := Nat.le_of_not_lt small
      rw [linksAtFrameStart, forTiles_tile_of_le otherTilesKept_stepLinkUnlessDone s past]
      exact ⟨rfl, rfl⟩
  · have past := Nat.le_of_not_lt there
    rw [State.tile_of_length_le past, State.tile_of_length_le (by rwa [linksAtFrameStart_length])]
    exact ⟨rfl, rfl⟩

theorem scheduled_lists (s : State) (k : Nat) :
    ((scheduleAtFrameStart (beginFrame s)).tile k).switches = (s.tile k).switches ∧
    ((scheduleAtFrameStart (beginFrame s)).tile k).stopAt = (s.tile k).stopAt := by
  have lists := linksAtFrameStart_lists s k
  rw [State.tile, scheduled_tiles]
  exact lists

theorem scanAtFrameStart_commit (s : State) :
    (scanAtFrameStart s).commit = (forTiles Config.tileCount scanTile s).commit := by
  rw [scanAtFrameStart, State.setWindow_commit]

/-- The showing table after the scan contexts' turn of a frame start. -/
theorem frameScanned_released {s : State} (distinct : (s.commit.showing.map (·.id)).Nodup) :
    Released (fun i j => j < 16 ∧ (s.tile j).GivesUp (s.now + 1) (s.commit.showing.map (·.id)) i) s.commit.showing
      (frameScanned s).commit.showing := by
  have showing := scheduled_showing s
  have now := scheduled_now s
  have lists := scheduled_lists s
  rw [frameScanned, scanAtFrameStart_commit]
  generalize scheduleAtFrameStart (beginFrame s) = v at *
  have turn := forTiles_scanTile_released Config.tileCount (s := v) (by rw [showing]; exact distinct)
  rw [showing, now] at turn
  refine turn.congr fun i j _ => ?_
  obtain ⟨switches, stopAt⟩ := lists j
  rw [Tile.GivesUp, Tile.GivesUp, switches, stopAt, Config.tileCount]

end Sys2Proof.Machine
end

section
/-! Completions and releases at a frame start (R92 to R94): the showing table, the due list, the writes handed on, the MARK tag
and the persist job. -/

set_option Elab.async false

namespace Sys2Proof.Machine

/-! ## A write handed on (R79) -/

theorem handOn_commit (record : Nat) (kind : OutcomeKind) (s : State) :
    (handOn record kind s).commit = { s.commit with handoff := (handOn record kind s).commit.handoff } := by
  rcases handOn_cases record kind s with h | h <;> rw [h] <;> rfl

theorem handOn_report (record : Nat) (kind : OutcomeKind) (s : State) :
    (handOn record kind s).report = { s.report with queue := (handOn record kind s).report.queue } := by
  rcases handOn_cases record kind s with h | h <;> rw [h] <;> rfl

theorem handedCount_handOn (r record : Nat) (k kind : OutcomeKind) (s : State) :
    handedCount r k (handOn record kind s) =
      handedCount r k s + if (⟨record, kind⟩ : OutcomeWrite) = ⟨r, k⟩ then 1 else 0 := by
  have once (p : Prop) [Decidable p] {α : Type} [DecidableEq α] (l : List α) {x y : α} (same : x = y ↔ p) :
      (l ++ [x]).count y = l.count y + if p then 1 else 0 := by
    rw [List.count_append, List.count_singleton]
    by_cases h : p
    · rw [if_pos h, if_pos (by simpa using same.2 h)]
    · rw [if_neg h, if_neg (by simpa using mt same.1 h)]
  rcases handOn_cases record kind s with h | h <;> rw [h]
  · show (s.report.queue ++ [_]).count _ + s.commit.handoff.count _ = _
    rw [once ((⟨record, kind⟩ : OutcomeWrite) = ⟨r, k⟩) _ (by simp), handedCount]
    omega
  · show s.report.queue.count _ + (s.commit.handoff ++ [_]).count _ = _
    rw [once ((⟨record, kind⟩ : OutcomeWrite) = ⟨r, k⟩) _ Iff.rfl, handedCount]
    omega

/-! ## What a due cue does at its visible frame (R94) -/

/-- A due-list entry that offers a persist job. -/
def DueEntry.persists (d : DueEntry) : Bool :=
  d.persist && match d.body with | .trim _ => true | .scene _ | .clock _ | .mark _ => false

theorem dueEffect_of_mark {d : DueEntry} {tag : BitVec 32} (body : d.body = .mark tag) (s : State) :
    dueEffect d s = (s.setReport { s.report with tag := tag, tagNew := true }, false) := by
  unfold dueEffect
  rw [body]

theorem dueEffect_of_persist {d : DueEntry} {entries : List TrimEntry} (body : d.body = .trim entries)
    (persist : d.persist = true) (s : State) :
    dueEffect d s = ((offerTrimJob entries s).1, !(offerTrimJob entries s).2) := by
  unfold dueEffect
  rw [body]
  simp [persist]

theorem dueEffect_of_other {d : DueEntry} (noMark : ∀ tag, d.body ≠ .mark tag) (noJob : d.persists = false) (s : State) :
    dueEffect d s = (s, false) := by
  unfold dueEffect
  split
  · rfl
  · rfl
  · next tag body => exact absurd body (noMark tag)
  · next entries body =>
    have unset : d.persist = false := by simpa [DueEntry.persists, body] using noJob
    rw [unset]
    rfl

theorem persists_iff (d : DueEntry) : d.persists = true ↔ d.persist = true ∧ ∃ entries, d.body = .trim entries := by
  cases body : d.body <;> simp [DueEntry.persists, body]

/-- The three kinds of a due cue's effect: a tag, a persist job, or nothing. -/
theorem DueEntry.effect_cases (d : DueEntry) :
    (∃ tag, d.body = .mark tag) ∨ (∃ entries, d.body = .trim entries ∧ d.persist = true) ∨
    ((∀ tag, d.body ≠ .mark tag) ∧ d.persists = false) := by
  cases persists : d.persists with
  | true =>
    obtain ⟨persist, entries, body⟩ := (persists_iff d).1 persists
    exact .inr (.inl ⟨entries, body, persist⟩)
  | false =>
    by_cases mark : ∃ tag, d.body = .mark tag
    · exact .inl mark
    · exact .inr (.inr ⟨fun tag body => mark ⟨tag, body⟩, rfl⟩)

theorem offerTrimJob_taken {s : State} (taken : s.store.job.isSome = true) (entries : List TrimEntry) :
    offerTrimJob entries s = (s, false) := if_pos taken

theorem offerTrimJob_accepted {s : State} (free : s.store.job = none) (entries : List TrimEntry) :
    (offerTrimJob entries s).2 = true := by
  unfold offerTrimJob
  rw [if_neg (by rw [free]; decide)]
  split <;> rfl

/-- An offer leaves the Report Writer alone, but for the news of a job's end. -/
theorem offerTrimJob_report (entries : List TrimEntry) (s : State) :
    (offerTrimJob entries s).1.report = { s.report with resultNew := (offerTrimJob entries s).1.report.resultNew } := by
  unfold offerTrimJob placeJob
  split
  · rfl
  · split
    · dsimp only
      split
      · rw [endJob_queue]
      · rfl
    · dsimp only
      rw [endJob_queue]

/-! ## One cue reaches its visible frame -/

def Reaching.shows (id : PassId) : Reaching → Bool
  | .scene e => e.id == id
  | .due _ => false

def Reaching.completes (pass : BitVec 32) : Reaching → Bool
  | .scene _ => false
  | .due d => d.pass == pass

theorem onlyIn_dueEffect_commit (d : DueEntry) (s : State) : (dueEffect d s).1.commit = s.commit :=
  (onlyIn_dueEffect_unseen d s).commit

/-- The Commit Unit after a cue has reached its visible frame, but for the hand-off list. -/
theorem completeReaching_commit (s : State) (x : Reaching) :
    (completeReaching s x).commit = { s.commit with
      showing := s.commit.showing.map (fun e => { e with shown := e.shown || x.shows e.id })
      due := s.commit.due.filter (fun d => !x.completes d.pass)
      handoff := (completeReaching s x).commit.handoff } := by
  cases x with
  | scene e =>
    have marked : s.commit.showing.map (fun x => if x.id = e.id then { x with shown := true } else x) =
        s.commit.showing.map (fun x => { x with shown := x.shown || (Reaching.scene e).shows x.id }) := by
      refine List.map_congr_left fun x _ => ?_
      by_cases same : x.id = e.id
      · rw [if_pos same]
        simp [Reaching.shows, same]
      · rw [if_neg same]
        have : (e.id == x.id) = false := by simpa using fun h => same h.symm
        simp [Reaching.shows, this]
    have due : s.commit.due.filter (fun d => !(Reaching.scene e).completes d.pass) = s.commit.due :=
      List.filter_eq_self.2 fun _ _ => rfl
    show (handOn _ _ (s.setCommit _)).commit = _
    rw [handOn_commit, due, ← marked]
    rfl
  | due d =>
    have showing : s.commit.showing.map (fun e => { e with shown := e.shown || (Reaching.due d).shows e.id }) =
        s.commit.showing := by
      conv_rhs => rw [← List.map_id s.commit.showing]
      exact List.map_congr_left fun e _ => by simp [Reaching.shows]
    have due : s.commit.due.filter (fun x => !(Reaching.due d).completes x.pass) =
        s.commit.due.filter (fun x => x.pass != d.pass) := by
      refine List.filter_congr fun x _ => ?_
      rw [Bool.eq_iff_iff]
      simp [Reaching.completes, eq_comm (a := d.pass)]
    show (completeDue d s).commit = _
    rw [showing, due, completeDue]
    dsimp only
    rw [handOn_commit, onlyIn_dueEffect_commit]
    rfl

theorem completeReaching_released (s : State) (x : Reaching) (r : Nat) :
    handedCount r .released (completeReaching s x) = handedCount r .released s := by
  cases x with
  | scene e =>
    show handedCount r .released (handOn _ _ (s.setCommit _)) = _
    rw [handedCount_handOn, if_neg (by simp)]
    rfl
  | due d =>
    show handedCount r .released (completeDue d s) = _
    rw [completeDue]
    dsimp only
    rw [handedCount_handOn, if_neg (by split <;> simp), Nat.add_zero, handedCount, onlyIn_dueEffect_commit]
    have queue (u : State) : (dueEffect d u).1.report.queue = u.report.queue := by
      rcases d.effect_cases with ⟨tag, body⟩ | ⟨entries, body, persist⟩ | ⟨noMark, noJob⟩
      · rw [dueEffect_of_mark body]
        rfl
      · rw [dueEffect_of_persist body persist, offerTrimJob_report]
      · rw [dueEffect_of_other noMark noJob]
    rw [queue]
    rfl

/-- The write a due cue hands on, and whether its PERSIST job was refused. -/
theorem completeDue_handed (d : DueEntry) (s : State) : ∃ refused,
    Handed d.record (if d.keep then .keepShown d.visible d.slip d.late refused
      else .done d.visible d.slip d.late refused) (completeDue d s) ∧
    (d.persists = false → refused = false) ∧
    (∀ entries, d.body = .trim entries → d.persist = true → s.store.job.isSome = true → refused = true) ∧
    (s.store.job = none → refused = false) := by
  set u := s.setCommit { s.commit with due := s.commit.due.filter (fun x => x.pass != d.pass) } with hu
  refine ⟨(dueEffect d u).2, handed_handOn _ _ _, fun none => ?_, fun entries body persist taken => ?_, fun free => ?_⟩
  · rcases d.effect_cases with ⟨tag, body⟩ | ⟨entries, body, persist⟩ | ⟨noMark, noJob⟩
    · rw [dueEffect_of_mark body]
    · rw [(persists_iff d).2 ⟨persist, entries, body⟩] at none
      cases none
    · rw [dueEffect_of_other noMark noJob]
  · rw [dueEffect_of_persist body persist, offerTrimJob_taken (s := u) taken]
    rfl
  · rcases d.effect_cases with ⟨tag, body⟩ | ⟨entries, body, persist⟩ | ⟨noMark, noJob⟩
    · rw [dueEffect_of_mark body]
    · rw [dueEffect_of_persist body persist, offerTrimJob_accepted (s := u) free]
      rfl
    · rw [dueEffect_of_other noMark noJob]

/-- A cue that offers no job leaves the store and the news of it alone. -/
def Reaching.offers : Reaching → Bool
  | .scene _ => false
  | .due d => d.persists

theorem completeReaching_store {x : Reaching} {s : State} (none : x.offers = false ∨ s.store.job.isSome = true) :
    (completeReaching s x).store = s.store ∧ (completeReaching s x).report.resultNew = s.report.resultNew := by
  cases x with
  | scene e =>
    refine ⟨(onlyIn_showScene e s).store, ?_⟩
    show (handOn _ _ (s.setCommit _)).report.resultNew = _
    rw [handOn_report]
    rfl
  | due d =>
    show (completeDue d s).store = _ ∧ (completeDue d s).report.resultNew = _
    rw [completeDue]
    dsimp only
    rw [(onlyIn_handOn _ _ _).store, handOn_report]
    rcases d.effect_cases with ⟨tag, body⟩ | ⟨entries, body, persist⟩ | ⟨noMark, noJob⟩
    · rw [dueEffect_of_mark body]
      exact ⟨rfl, rfl⟩
    · have taken : s.store.job.isSome = true := by
        refine none.resolve_left fun h => ?_
        rw [Reaching.offers, (persists_iff d).2 ⟨persist, entries, body⟩] at h
        cases h
      rw [dueEffect_of_persist body persist, offerTrimJob_taken (by exact taken)]
      exact ⟨rfl, rfl⟩
    · rw [dueEffect_of_other noMark noJob]
      exact ⟨rfl, rfl⟩

theorem completeReaching_job {x : Reaching} {s : State} (taken : s.store.job.isSome = true) :
    (completeReaching s x).store.job.isSome = true := by
  rw [(completeReaching_store (.inr taken)).1]
  exact taken

def Reaching.tag? : Reaching → Option (BitVec 32)
  | .scene _ => none
  | .due d => match d.body with | .mark tag => some tag | .scene _ | .trim _ | .clock _ => none

theorem completeReaching_tag (s : State) (x : Reaching) :
    (completeReaching s x).report.tag = x.tag?.getD s.report.tag ∧
    (completeReaching s x).report.tagNew = (x.tag?.isSome || s.report.tagNew) := by
  cases x with
  | scene e =>
    show (handOn _ _ (s.setCommit _)).report.tag = _ ∧ (handOn _ _ (s.setCommit _)).report.tagNew = _
    rw [handOn_report]
    exact ⟨rfl, rfl⟩
  | due d =>
    show (completeDue d s).report.tag = _ ∧ (completeDue d s).report.tagNew = _
    rw [completeDue]
    dsimp only
    rw [handOn_report]
    rcases d.effect_cases with ⟨tag, body⟩ | ⟨entries, body, persist⟩ | ⟨noMark, noJob⟩
    · have tagged : (Reaching.due d).tag? = some tag := by simp [Reaching.tag?, body]
      rw [dueEffect_of_mark body, tagged]
      exact ⟨rfl, rfl⟩
    · have untagged : (Reaching.due d).tag? = none := by simp [Reaching.tag?, body]
      rw [dueEffect_of_persist body persist, untagged, offerTrimJob_report]
      exact ⟨rfl, rfl⟩
    · have untagged : (Reaching.due d).tag? = none := by
        cases body : d.body with
        | mark tag => exact absurd body (noMark tag)
        | scene => simp [Reaching.tag?, body]
        | trim => simp [Reaching.tag?, body]
        | clock => simp [Reaching.tag?, body]
      rw [dueEffect_of_other noMark noJob, untagged]
      exact ⟨rfl, rfl⟩

/-! ## All cues that reach their visible frame -/

theorem completions_commit (l : List Reaching) (s : State) :
    (l.foldl completeReaching s).commit = { s.commit with
      showing := s.commit.showing.map (fun e => { e with shown := e.shown || l.any (·.shows e.id) })
      due := s.commit.due.filter (fun d => !l.any (·.completes d.pass))
      handoff := (l.foldl completeReaching s).commit.handoff } := by
  induction l generalizing s with
  | nil => simp
  | cons x rest ih =>
    rw [List.foldl_cons, ih, completeReaching_commit]
    dsimp only
    rw [List.map_map, List.filter_filter]
    congr 1
    · refine List.map_congr_left fun e _ => ?_
      simp [Bool.or_assoc]
    · refine List.filter_congr fun d _ => ?_
      rw [List.any_cons, Bool.not_or, Bool.and_comm]

theorem completions_released (l : List Reaching) (s : State) (r : Nat) :
    handedCount r .released (l.foldl completeReaching s) = handedCount r .released s := by
  induction l generalizing s with
  | nil => rfl
  | cons x rest ih => rw [List.foldl_cons, ih, completeReaching_released]

theorem handsOn_completions (l : List Reaching) (s : State) : HandsOn s (l.foldl completeReaching s) :=
  handsOn_foldl handsOn_completeReaching l s

theorem completions_shown {l : List Reaching} {e : ShowEntry} (there : .scene e ∈ l) (s : State) :
    Handed e.id.record (.sceneShown e.degraded e.clipped e.overBudget) (l.foldl completeReaching s) := by
  induction l generalizing s with
  | nil => cases there
  | cons x rest ih =>
    rcases List.mem_cons.1 there with rfl | there
    · exact (handed_handOn _ _ _).mono (handsOn_completions rest _)
    · exact ih there _

theorem completions_job {l : List Reaching} {s : State} (taken : s.store.job.isSome = true) :
    (l.foldl completeReaching s).store = s.store ∧
    (l.foldl completeReaching s).report.resultNew = s.report.resultNew := by
  induction l generalizing s with
  | nil => exact ⟨rfl, rfl⟩
  | cons x rest ih =>
    obtain ⟨store, news⟩ := completeReaching_store (x := x) (.inr taken)
    obtain ⟨store', news'⟩ := ih (s := completeReaching s x) (by rw [store]; exact taken)
    exact ⟨store'.trans store, news'.trans news⟩

theorem completions_quiet {l : List Reaching} (none : ∀ x ∈ l, x.offers = false) (s : State) :
    (l.foldl completeReaching s).store = s.store ∧
    (l.foldl completeReaching s).report.resultNew = s.report.resultNew := by
  induction l generalizing s with
  | nil => exact ⟨rfl, rfl⟩
  | cons x rest ih =>
    obtain ⟨store, news⟩ := completeReaching_store (s := s) (.inl (none x (List.mem_cons_self ..)))
    obtain ⟨store', news'⟩ := ih (fun y there => none y (List.mem_cons_of_mem _ there)) (completeReaching s x)
    exact ⟨store'.trans store, news'.trans news⟩

theorem completions_done {l : List Reaching} {d : DueEntry} (there : .due d ∈ l) (s : State) : ∃ refused,
    Handed d.record (if d.keep then .keepShown d.visible d.slip d.late refused
      else .done d.visible d.slip d.late refused) (l.foldl completeReaching s) ∧
    (d.persists = false → refused = false) ∧
    (∀ entries, d.body = .trim entries → d.persist = true → s.store.job.isSome = true → refused = true) := by
  induction l generalizing s with
  | nil => cases there
  | cons x rest ih =>
    rcases List.mem_cons.1 there with rfl | there
    · obtain ⟨refused, handed, none, taken, -⟩ := completeDue_handed d s
      exact ⟨refused, handed.mono (handsOn_completions rest _), none, taken⟩
    · obtain ⟨refused, handed, none, taken⟩ := ih there (completeReaching s x)
      exact ⟨refused, handed, none, fun entries body persist job =>
        taken entries body persist (completeReaching_job job)⟩

/-- The tag of the last MARK completed, new for the refresh; without one the tag stands. -/
theorem completions_tag (l : List Reaching) (s : State) :
    ((∀ x ∈ l, x.tag? = none) → (l.foldl completeReaching s).report.tag = s.report.tag ∧
      (l.foldl completeReaching s).report.tagNew = s.report.tagNew) ∧
    ((∃ x ∈ l, x.tag?.isSome = true) → (l.foldl completeReaching s).report.tagNew = true ∧
      ∃ x ∈ l, x.tag? = some (l.foldl completeReaching s).report.tag) ∧
    (s.report.tagNew = true → (l.foldl completeReaching s).report.tagNew = true) := by
  induction l generalizing s with
  | nil => exact ⟨fun _ => ⟨rfl, rfl⟩, fun h => absurd h (by simp), id⟩
  | cons x rest ih =>
    obtain ⟨tag, news⟩ := completeReaching_tag s x
    obtain ⟨still, marked, kept⟩ := ih (completeReaching s x)
    refine ⟨fun none => ?_, fun some => ?_, fun old => ?_⟩
    · have first := none x (List.mem_cons_self ..)
      obtain ⟨tag', news'⟩ := still fun y there => none y (List.mem_cons_of_mem _ there)
      rw [first] at tag news
      exact ⟨tag'.trans tag, news'.trans news⟩
    · by_cases later : ∃ y ∈ rest, y.tag?.isSome = true
      · obtain ⟨news', y, there, tagged⟩ := marked later
        exact ⟨news', y, List.mem_cons_of_mem _ there, tagged⟩
      · have quiet : ∀ y ∈ rest, y.tag? = none := by simpa using later
        obtain ⟨y, there, tagged⟩ := some
        rcases List.mem_cons.1 there with rfl | there
        · obtain ⟨mark, isMark⟩ := Option.isSome_iff_exists.1 tagged
          obtain ⟨tag', news'⟩ := still quiet
          rw [isMark] at tag news
          refine ⟨news'.trans news, y, List.mem_cons_self .., ?_⟩
          show y.tag? = some (rest.foldl completeReaching (completeReaching s y)).report.tag
          rw [tag', tag, isMark]
          rfl
        · exact absurd ⟨y, there, tagged⟩ later
    · exact kept (by rw [news, old, Bool.or_true])

/-! ## The cues that reach their visible frame (R92) -/

theorem insertReaching_perm (s : State) (x : Reaching) (l : List Reaching) : (insertReaching s x l).Perm (x :: l) := by
  induction l with
  | nil => exact .refl _
  | cons y rest ih =>
    rw [insertReaching]
    split
    · exact (ih.cons y).trans (.swap x y rest)
    · exact .refl _

theorem reaching_perm (s : State) : s.reaching.Perm
    ((s.commit.due.filter (fun e => e.visible == s.now)).map Reaching.due ++
      (s.commit.showing.filter (fun e => e.visible == s.now && !e.shown)).map Reaching.scene) := by
  have fold (dues : List Reaching) (l : List Reaching) :
      (dues.foldl (fun l x => insertReaching s x l) l).Perm (dues ++ l) := by
    induction dues generalizing l with
    | nil => exact .refl l
    | cons x rest ih =>
      refine (ih _).trans (((insertReaching_perm s x l).append_left rest).trans ?_)
      exact List.perm_middle
  exact fold _ _

theorem scene_mem_reaching (s : State) (e : ShowEntry) :
    .scene e ∈ s.reaching ↔ e ∈ s.commit.showing ∧ e.visible = s.now ∧ e.shown = false := by
  rw [(reaching_perm s).mem_iff]
  simp

theorem due_mem_reaching (s : State) (d : DueEntry) :
    .due d ∈ s.reaching ↔ d ∈ s.commit.due ∧ d.visible = s.now := by
  rw [(reaching_perm s).mem_iff]
  simp

end Sys2Proof.Machine
end

section
/-! A committed scene stands (R80, R92 to R94). -/

set_option Elab.async false

namespace Sys2Proof.Machine

/-! ## Scenes released (R93) -/

theorem releases_commit (l : List ShowEntry) (s : State) :
    (l.foldl (fun u e => if e.keep then u else handOn e.id.record .released u) s).commit = { s.commit with
      handoff := (l.foldl (fun u e => if e.keep then u else handOn e.id.record .released u) s).commit.handoff } := by
  induction l generalizing s with
  | nil => rfl
  | cons e rest ih =>
    rw [List.foldl_cons, ih]
    split
    · rfl
    · rw [handOn_commit]

theorem releases_report (l : List ShowEntry) (s : State) :
    (l.foldl (fun u e => if e.keep then u else handOn e.id.record .released u) s).report = { s.report with
      queue := (l.foldl (fun u e => if e.keep then u else handOn e.id.record .released u) s).report.queue } := by
  induction l generalizing s with
  | nil => rfl
  | cons e rest ih =>
    rw [List.foldl_cons, ih]
    split
    · rfl
    · rw [handOn_report]

theorem releases_count (l : List ShowEntry) (s : State) (r : Nat) :
    handedCount r .released (l.foldl (fun u e => if e.keep then u else handOn e.id.record .released u) s) =
      handedCount r .released s + l.countP (fun e => !e.keep && e.id.record == r) := by
  induction l generalizing s with
  | nil => rfl
  | cons e rest ih =>
    rw [List.foldl_cons, ih, List.countP_cons]
    cases keep : e.keep with
    | true => simp
    | false =>
      have same : ((⟨e.id.record, .released⟩ : OutcomeWrite) = ⟨r, .released⟩) ↔ (e.id.record == r) = true := by simp
      simp only [Bool.false_eq_true, if_false, handedCount_handOn, same, Bool.not_false, Bool.true_and]
      omega

theorem releases_handed {l : List ShowEntry} {e : ShowEntry} (there : e ∈ l) (keep : e.keep = false) (s : State) :
    Handed e.id.record .released (l.foldl (fun u e => if e.keep then u else handOn e.id.record .released u) s) := by
  have step (u : State) (e : ShowEntry) : HandsOn u (if e.keep then u else handOn e.id.record .released u) := by
    split
    · exact .refl u
    · exact handsOn_handOn _ _ u
  induction l generalizing s with
  | nil => cases there
  | cons x rest ih =>
    rcases List.mem_cons.1 there with rfl | there
    · rw [List.foldl_cons, keep]
      exact (handed_handOn _ _ _).mono (handsOn_foldl step rest _)
    · exact ih there _

theorem releaseScenes_commit (s : State) : (releaseScenes s).commit = { s.commit with
    showing := s.commit.showing.filter (fun e => !e.released), handoff := (releaseScenes s).commit.handoff } :=
  releases_commit _ _

theorem releaseScenes_report (s : State) :
    (releaseScenes s).report = { s.report with queue := (releaseScenes s).report.queue } :=
  releases_report _ _

theorem releaseScenes_count (s : State) (r : Nat) : handedCount r .released (releaseScenes s) =
    handedCount r .released s +
      (s.commit.showing.filter (·.released)).countP (fun e => !e.keep && e.id.record == r) :=
  releases_count _ _ r

theorem releaseScenes_handed {s : State} {e : ShowEntry} (there : e ∈ s.commit.showing) (released : e.released = true)
    (keep : e.keep = false) : Handed e.id.record .released (releaseScenes s) :=
  releases_handed (List.mem_filter.2 ⟨there, released⟩) keep _

/-! ## The Commit Unit at the refresh and at the end of a frame start -/

theorem completed_commit (u : State) : (releaseScenes (u.reaching.foldl completeReaching u)).commit = { u.commit with
    showing := (u.commit.showing.map (fun e =>
      { e with shown := e.shown || u.reaching.any (·.shows e.id) })).filter (fun e => !e.released)
    due := u.commit.due.filter (fun d => !u.reaching.any (·.completes d.pass))
    handoff := (releaseScenes (u.reaching.foldl completeReaching u)).commit.handoff } := by
  have completed := completions_commit u.reaching u
  generalize u.reaching.foldl completeReaching u = c at *
  have released := releaseScenes_commit c
  refine released.trans ?_
  generalize (releaseScenes c).commit.handoff = handoff
  generalize c.commit = before at *
  rw [completed]

theorem frameReleased_commit (s : State) : (frameReleased s).commit = { (frameScanned s).commit with
    showing := ((frameScanned s).commit.showing.map (fun e =>
      { e with shown := e.shown || (frameScanned s).reaching.any (·.shows e.id) })).filter (fun e => !e.released)
    due := (frameScanned s).commit.due.filter (fun d => !(frameScanned s).reaching.any (·.completes d.pass))
    handoff := (frameReleased s).commit.handoff } := by
  have done : frameReleased s = releaseScenes ((frameScanned s).reaching.foldl completeReaching (frameScanned s)) := by
    rw [frameReleased]
  generalize frameReleased s = r at *
  generalize frameScanned s = u at *
  subst done
  exact completed_commit u

theorem untilRefresh_showing (s : State) : (untilRefresh s).commit.showing = (frameReleased s).commit.showing ∧
    (untilRefresh s).commit.due = (frameReleased s).commit.due ∧
    (untilRefresh s).commit.handoff = (frameReleased s).commit.handoff := by
  have stopped : (frameStopped s).commit.showing = (frameReleased s).commit.showing ∧
      (frameStopped s).commit.due = (frameReleased s).commit.due ∧
      (frameStopped s).commit.handoff = (frameReleased s).commit.handoff := by
    rw [frameStopped]
    generalize frameReleased s = u
    unfold completeStop
    split <;> exact ⟨rfl, rfl, rfl⟩
  obtain ⟨showing, due, handoff⟩ := stopped
  have commit := untilRefresh_commit s
  generalize untilRefresh s = t at *
  generalize frameStopped s = u at *
  rw [← showing, ← due, ← handoff, commit]
  exact ⟨rfl, rfl, rfl⟩

theorem untilRefresh_report (s : State) : (untilRefresh s).report = (frameReleased s).report := by
  rw [(onlyIn_untilRefresh_frameStopped s).report, frameStopped, (onlyIn_completeStop _).report]

theorem takeRefresh_rest (s : State) : (takeRefresh s).report.tag = s.report.tag ∧
    ∀ w g, (takeRefresh s).report.queue.count (.outcome w g) = s.report.queue.count (.outcome w g) := by
  unfold takeRefresh
  split
  · refine ⟨rfl, fun w g => ?_⟩
    show (s.report.queue ++ [_]).count _ = _
    rw [List.count_append, List.count_singleton, if_neg (by simp), Nat.add_zero]
  · exact ⟨rfl, fun _ _ => rfl⟩

theorem FrameEnd.handedCount_eq {s t : State} (h : FrameEnd (untilRefresh s) t) (r : Nat) (k : OutcomeKind) :
    handedCount r k t = handedCount r k (frameReleased s) := by
  obtain ⟨-, -, handoff⟩ := untilRefresh_showing s
  rw [handedCount, handedCount, h.report, (takeRefresh_rest _).2, h.handoff, handoff, untilRefresh_report]

/-! ## Every step but a frame start and the resets (R80) -/

/-- Every entry of the showing table of `s` stands in that of `t`, its dwell end apart. -/
def Stand (s t : State) : Prop :=
  ∀ e ∈ s.commit.showing, ∃ e' ∈ t.commit.showing, e'.id = e.id ∧ e'.visible = e.visible ∧ e'.held = e.held ∧
    e'.shown = e.shown ∧ e'.degraded = e.degraded ∧ e'.clipped = e.clipped ∧ e'.overBudget = e.overBudget

theorem Stand.of_subset {s t : State} (h : s.commit.showing ⊆ t.commit.showing) : Stand s t :=
  fun e there => ⟨e, h there, rfl, rfl, rfl, rfl, rfl, rfl, rfl⟩

theorem Stand.of_eq {s t : State} (h : t.commit.showing = s.commit.showing) : Stand s t :=
  .of_subset (h ▸ fun _ h => h)

theorem OnlyIn.stand {ps : List Part} {s t : State} (h : OnlyIn ps s t) (hc : Part.commit ∉ ps := by decide) :
    Stand s t := .of_eq (congrArg CommitUnit.showing (h.commit hc))

/-- Of the Commit Unit a level request and the count of commits alone have changed. -/
def LevelOnly (s t : State) : Prop :=
  t.commit = { s.commit with levelRequest := t.commit.levelRequest, commitCount := t.commit.commitCount }

theorem LevelOnly.refl (s : State) : LevelOnly s s := rfl

theorem LevelOnly.trans {s t u : State} (h : LevelOnly s t) (g : LevelOnly t u) : LevelOnly s u := by
  unfold LevelOnly at *
  rw [g, h]

theorem OnlyIn.levelOnly {ps : List Part} {s t : State} (h : OnlyIn ps s t) (hc : Part.commit ∉ ps := by decide) :
    LevelOnly s t := by
  unfold LevelOnly
  rw [h.commit hc]

theorem levelOnly_requestLevel (set : LevelSet) (s : State) : LevelOnly s (requestLevel set s) := by
  obtain ⟨placed, waits⟩ := requestLevel_spec set s
  unfold LevelOnly
  by_cases room : ∀ k, k < s.prof.tiles → (s.tile k).switches.countP (fun sw => sw.frame != s.now) < 16
  · rw [(placed room).1]
  · rw [waits room]
    rfl

theorem levelOnly_changeAmbient (s : State) : LevelOnly s (changeAmbient s) :=
  ((onlyIn_setAmbient s _).levelOnly.trans (onlyIn_raise _ _).levelOnly).trans (levelOnly_requestLevel _ _)

theorem levelOnly_judgeAmbient (average : Nat) (s : State) : LevelOnly s (judgeAmbient average s) := by
  unfold judgeAmbient
  split
  · split
    · split
      · exact levelOnly_changeAmbient s
      · exact (onlyIn_setAmbient s _).levelOnly
    · exact (onlyIn_setAmbient s _).levelOnly
  · exact .refl s
  · exact .refl s

theorem levelOnly_takeReading (r : Nat) (s : State) : LevelOnly s (takeReading r s) := by
  unfold takeReading
  refine LevelOnly.trans ?_ (levelOnly_judgeAmbient _ _)
  split
  · exact (onlyIn_setAmbient s _).levelOnly.trans (onlyIn_raise _ _).levelOnly
  · exact (onlyIn_setAmbient s _).levelOnly

theorem levelOnly_beginRunning (s : State) : LevelOnly s (beginRunning s) := by
  have polling (u : State) : LevelOnly u (beginPolling u) := by
    unfold beginPolling
    split
    · exact (onlyIn_setAmbient u _).levelOnly.trans (levelOnly_changeAmbient _)
    · exact (onlyIn_setAmbient u _).levelOnly
    · exact (onlyIn_setAmbient u _).levelOnly
  unfold beginRunning
  exact ((((onlyIn_setFtg s _).levelOnly.trans
    (onlyIn_forTiles _ beginLink (fun k u => onlyIn_updTile k _ u) _).levelOnly).trans (polling _)).trans
    (onlyIn_takeRefresh _).levelOnly).trans (onlyIn_prepareEngines _).levelOnly

theorem levelOnly_adopt (p : Profile) (s : State) : LevelOnly s (adopt p s) :=
  ((onlyIn_setProfile s _).levelOnly.trans (onlyIn_setWindow _ _).levelOnly).trans (levelOnly_beginRunning _)

theorem levelOnly_loadingEnd (unread : List Nat) (s : State) : LevelOnly s (loadingEnd unread s) := by
  unfold loadingEnd
  split
  · dsimp only
    split
    · exact ((onlyIn_setStore s _).levelOnly.trans (onlyIn_setTiles _ _).levelOnly).trans (levelOnly_adopt _ _)
    · exact (onlyIn_setStore s _).levelOnly.trans (onlyIn_setWindow _ _).levelOnly
  · exact .refl s

theorem levelOnly_adoptRecord (p : Profile) (persist : Bool) (s : State) : LevelOnly s (adoptRecord p persist s) := by
  unfold adoptRecord
  refine (levelOnly_adopt p s).trans ?_
  split
  · exact (onlyIn_placeJob _ _ _).levelOnly
  · exact (onlyIn_setWindow _ _).levelOnly

theorem levelOnly_profileReadDone (s : State) : LevelOnly s (profileReadDone s) := by
  unfold profileReadDone
  split
  · split
    · dsimp only
      split
      · exact LevelOnly.trans (by rfl) (levelOnly_adoptRecord _ _ _)
      · exact LevelOnly.trans (by rfl) (onlyIn_setWindow _ _).levelOnly
    · exact .refl s
    · exact .refl s
  · exact .refl s

theorem LevelOnly.stand {s t : State} (h : LevelOnly s t) : Stand s t := .of_eq (by rw [h])

theorem Stand.trans {s t u : State} (h : Stand s t) (g : Stand t u) : Stand s u := by
  intro e there
  obtain ⟨x, here, id, visible, held, shown, degraded, clipped, overBudget⟩ := h e there
  obtain ⟨y, last, id', visible', held', shown', degraded', clipped', overBudget'⟩ := g x here
  exact ⟨y, last, id'.trans id, visible'.trans visible, held'.trans held, shown'.trans shown,
    degraded'.trans degraded, clipped'.trans clipped, overBudget'.trans overBudget⟩

theorem stand_command {c : Command} {take : State → State} {s : State} (h : Stand s (take s)) :
    Stand s (command c take s) := by
  cases judged : judge c s with
  | none => rwa [command_taken take judged]
  | some r =>
    rw [command_refused take judged]
    exact (onlyIn_recordCommand c r s).stand

theorem stand_withdrawn (s : State) : Stand s (withdrawAll (endAttempt (endFollowing s))) :=
  (Stand.of_eq (by rfl)).trans (onlyIn_withdrawAll (endAttempt (endFollowing s))).stand

theorem stand_takeRedirect (s : State) : Stand s (takeRedirect s) :=
  (((onlyIn_recordCommand .redirect .accepted s).stand.trans (stand_withdrawn _)).trans
    (onlyIn_setAnchor _).stand).trans (onlyIn_followFrom _ _).stand

/-- The Commit Unit after a STOP taken. -/
theorem takeStopCommand_commit (s : State) : ∃ vs, (takeStopCommand s).commit =
    { s.commit with attempt := none, stopFrame := some vs } := by
  set u := withdrawAll (endAttempt (endFollowing (recordCommand .stop .busy s))) with hu
  have withdrawn : u.commit = { s.commit with attempt := none } := (onlyIn_withdrawAll _).commit
  have placed := (onlyIn_forTiles u.prof.tiles
    (fun k s => s.updTile k (fun t => { t with stopAt := some (s.switchFrame k u.stopFrameOf) }))
    (fun k w => onlyIn_updTile k _ w) u).commit
  refine ⟨u.stopFrameOf, ?_⟩
  rw [withdrawn] at placed
  exact congrArg (fun c : CommitUnit => { c with stopFrame := some u.stopFrameOf }) placed

theorem stand_takeStopCommand (s : State) : Stand s (takeStopCommand s) := by
  obtain ⟨vs, commit⟩ := takeStopCommand_commit s
  exact .of_eq (by rw [commit])

theorem stand_extendScene (l : LastScene) (s : State) : Stand s (extendScene l s) := by
  intro e there
  refine ⟨_, List.mem_map_of_mem there, ?_⟩
  split <;> exact ⟨rfl, rfl, rfl, rfl, rfl, rfl, rfl⟩

theorem stand_triggerEvent (s : State) : Stand s (triggerEvent s) := by
  unfold triggerEvent
  split
  · exact .of_eq rfl
  · split
    · exact (onlyIn_resolveWait _ s).stand
    · split
      · split
        · exact stand_extendScene _ s
        · exact .of_eq rfl
      · exact .of_eq rfl

theorem stand_acceptEvent (i : EventInput) (s : State) : Stand s (acceptEvent i s) := by
  cases i with
  | trigger => exact stand_triggerEvent s
  | pulse =>
    have pending (u : State) : Stand u (pendAlignment u) := by
      unfold pendAlignment
      split
      · exact (onlyIn_setFtg u _).stand
      · exact .of_eq rfl
    exact (onlyIn_pulseEvent s).stand.trans (pending _)

theorem stand_inputActive (i : EventInput) (s : State) : Stand s (inputActive i s) := by
  unfold inputActive
  split
  · exact .of_eq rfl
  · dsimp only
    split
    · unfold qualify
      split
      · exact (Stand.of_eq (by rfl)).trans (stand_acceptEvent i _)
      · exact .of_eq rfl
    · exact .of_eq rfl

theorem stand_widthReached (i : EventInput) (s : State) : Stand s (widthReached i s) := by
  unfold widthReached
  split
  · split
    · exact (Stand.of_eq (by rfl)).trans (stand_acceptEvent i _)
    · exact .of_eq rfl
  · exact .of_eq rfl
  · exact .of_eq rfl

theorem stand_grantDecision (s : State) : Stand s (grantDecision s) := by
  have plate (index : Nat) : Stand s (grantPlate index s) := by
    unfold grantPlate
    split
    · exact .of_eq rfl
    · exact .of_eq rfl
  have place4 : Stand s (grantPlace4 s) := by
    unfold grantPlace4
    split
    · exact plate _
    · split
      · exact (onlyIn_grantFollower s).stand
      · split
        · exact (onlyIn_grantProfile s).stand
        · exact (onlyIn_grantOther s).stand
  unfold grantDecision
  split
  · exact (onlyIn_grantEngine _ _ s).stand
  · split
    · exact (onlyIn_grantHost s).stand
    · split
      · exact (onlyIn_grantReport _ s).stand
      · exact place4

theorem stand_commitDecision (s : State) : Stand s (commitDecision s) := by
  have run (n : Nat) (u : State) : Stand u (attemptRun n u) := .of_eq (attemptRun_keeps n u).2.1
  have decide (v : Eval) (a : Attempt) (l : List Assignment) (u : State) : Stand u (decideScene v a l u) := by
    unfold decideScene
    dsimp only
    split
    · exact (onlyIn_refusePlate _ _ _ u).stand.trans (run _ _)
    · split
      · split
        · refine Stand.trans (.of_subset ?_) (run _ _)
          rw [commitScene_eq, (onlyIn_leaveQueue _ _).commit, scenePlaced_commit]
          exact List.subset_append_left _ _
        · exact .of_eq rfl
      · split
        · exact (onlyIn_chargeSlack _ u).stand
        · exact (onlyIn_skipNotReady v u).stand.trans (run _ _)
  have ended : Stand s (endAttempt s) := .of_eq rfl
  unfold commitDecision
  split
  · exact .of_eq rfl
  · split
    · dsimp only
      split
      · exact ended
      · split
        · split
          · exact ended.trans (decide _ _ _ _)
          · exact ended
        · exact ended
        · exact ended
        · exact ended
    · exact .of_eq rfl

/-- A committed scene stands over every command but a frame start and the two resets (R80). -/
theorem stand_exec {c : Instr} {s t : State} (frame : c ≠ .frameStart) (skip : ∀ record, c ≠ .waitLimitSkip record)
    (wall : c ≠ .wallReset) (device : ∀ cut, c ≠ .deviceReset cut) (ran : exec c s = .next t) : Stand s t := by
  have other (commit : Part.commit ∉ parts c) : Stand s t := (onlyIn_exec ran).stand commit
  have ends {u : State} (same : exec c s = .next u) (h : Stand s u) : Stand s t :=
    Host.Outcome.next.inj (same.symm.trans ran) ▸ h
  cases c with
  | frameStart => exact absurd rfl frame
  | waitLimitSkip record => exact absurd rfl (skip record)
  | wallReset => exact absurd rfl wall
  | deviceReset cut => exact absurd rfl (device cut)
  | loadingEnd unread => exact ends rfl (levelOnly_loadingEnd unread s).stand
  | profileRecordReadDone => exact ends rfl (levelOnly_profileReadDone s).stand
  | redirect => exact ends rfl (stand_command (stand_takeRedirect s))
  | stop => exact ends rfl (stand_command (stand_takeStopCommand s))
  | grantDecision => exact ends rfl (stand_grantDecision s)
  | commitDecision => exact ends rfl ((stand_commitDecision s).trans (onlyIn_dryEdge_after s _).stand)
  | handoffWriteReceived => exact ends rfl (.of_eq (receiveHandoff_showing s))
  | eventInputActive i => exact ends rfl (stand_inputActive i s)
  | filterWidthReached i => exact ends rfl (stand_widthReached i s)
  | sensorReading x y =>
    refine ends rfl ?_
    split
    · exact (levelOnly_takeReading _ s).stand
    · exact .of_eq rfl
  | _ => exact other (by simp [parts])

end Sys2Proof.Machine
end

section
/-! The showing table and the due list over a frame start (R90, R92 to R94). -/

set_option Elab.async false

namespace Sys2Proof.Machine

theorem handsOn_released (s : State) : HandsOn (frameReleased s) (untilRefresh s) :=
  (handsOn_completeStop (frameReleased s)).trans (handsOn_untilRefresh_of_stopped s)

theorem handsOn_completed (s : State) :
    HandsOn ((frameScanned s).reaching.foldl completeReaching (frameScanned s)) (untilRefresh s) := by
  have released := handsOn_releaseScenes ((frameScanned s).reaching.foldl completeReaching (frameScanned s))
  exact HandsOn.trans released (handsOn_released s)

/-- In a table of distinct passes a scene's entry is shown by the completions exactly when its own frame has come. -/
theorem reaching_shows {f : State} (distinct : (f.commit.showing.map (·.id)).Nodup) {e : ShowEntry}
    (there : e ∈ f.commit.showing) :
    (e.shown || f.reaching.any (·.shows e.id)) = (e.shown || decide (e.visible = f.now)) := by
  cases shown : e.shown with
  | true => rfl
  | false =>
    rw [Bool.false_or, Bool.false_or, Bool.eq_iff_iff, decide_eq_true_iff, List.any_eq_true]
    constructor
    · rintro ⟨x, reaches, shows⟩
      cases x with
      | due d => cases shows
      | scene y =>
        obtain ⟨here, now, -⟩ := (scene_mem_reaching f y).1 reaches
        have same : y.id = e.id := by simpa [Reaching.shows] using shows
        obtain rfl := List.inj_on_of_nodup_map distinct here there same
        exact now
    · intro now
      exact ⟨.scene e, (scene_mem_reaching f e).2 ⟨there, now, shown⟩, by simp [Reaching.shows]⟩

/-- A showing-table entry at its visible frame or later. -/
def ShowEntry.atFrame (n : Nat) (e : ShowEntry) : ShowEntry := { e with shown := e.shown || decide (e.visible = n) }

section
variable {s t : State} (done : FrameEnd (untilRefresh s) t)
include done

/-- The showing table at the end of a frame start. -/
theorem FrameEnd.table (distinct : (s.commit.showing.map (·.id)).Nodup) :
    t.commit.showing =
      ((frameScanned s).commit.showing.map (ShowEntry.atFrame (s.now + 1))).filter (fun e => !e.released) := by
  have scanned : ((frameScanned s).commit.showing.map (·.id)).Nodup := by
    rw [(frameScanned_released distinct).ids]
    exact distinct
  have now := frameScanned_now s
  rw [done.showing, (untilRefresh_showing s).1, frameReleased_commit]
  generalize frameScanned s = f at *
  dsimp only
  congr 1
  refine List.map_congr_left fun e there => ?_
  rw [ShowEntry.atFrame, reaching_shows scanned there, now]

theorem FrameEnd.dueList :
    s.commit.due.filter (fun d => !(frameScanned s).reaching.any (·.completes d.pass)) ⊆ t.commit.due ∧
    ∀ d ∈ t.commit.due, d ∈ s.commit.due.filter (fun d => !(frameScanned s).reaching.any (·.completes d.pass)) ∨
      d.visible ≠ s.now + 1 := by
  have scanned : (frameScanned s).commit.due = s.commit.due := by rw [(received_frameScanned s).commit]
  have list : (untilRefresh s).commit.due =
      s.commit.due.filter (fun d => !(frameScanned s).reaching.any (·.completes d.pass)) := by
    rw [(untilRefresh_showing s).2.1, frameReleased_commit, scanned]
  obtain ⟨kept, added⟩ := done.due
  rw [list, untilRefresh_now] at *
  refine ⟨kept, fun d there => (added d there).imp_right fun late => ?_⟩
  rw [late, State.horizon]
  omega

theorem FrameEnd.tags : t.report.tag = (frameReleased s).report.tag := by
  rw [done.report, (takeRefresh_rest _).1, untilRefresh_report]

end

theorem completed_tags (u : State) :
    (releaseScenes (u.reaching.foldl completeReaching u)).report.tag = (u.reaching.foldl completeReaching u).report.tag ∧
    (releaseScenes (u.reaching.foldl completeReaching u)).report.tagNew =
      (u.reaching.foldl completeReaching u).report.tagNew := by
  generalize u.reaching.foldl completeReaching u = c
  have released := releaseScenes_report c
  generalize releaseScenes c = r at *
  rw [released]
  exact ⟨rfl, rfl⟩

/-- The report tag over the completions of a frame start: it follows the MARK cues among them (R94). -/
theorem frameReleased_tags (s : State) :
    ((∀ x ∈ (frameScanned s).reaching, x.tag? = none) → (frameReleased s).report.tag = s.report.tag ∧
      (frameReleased s).report.tagNew = s.report.tagNew) ∧
    ((∃ x ∈ (frameScanned s).reaching, x.tag?.isSome = true) → (frameReleased s).report.tagNew = true ∧
      ∃ x ∈ (frameScanned s).reaching, x.tag? = some (frameReleased s).report.tag) := by
  have done : frameReleased s = releaseScenes ((frameScanned s).reaching.foldl completeReaching (frameScanned s)) := by
    rw [frameReleased]
  have before := (received_frameScanned s).report
  generalize frameReleased s = r at *
  generalize frameScanned s = u at *
  obtain ⟨tag, tagNew⟩ := completed_tags u
  obtain ⟨quiet, marks, -⟩ := completions_tag u.reaching u
  rw [← done] at tag tagNew
  have tag_before : u.report.tag = s.report.tag := by rw [before]
  have new_before : u.report.tagNew = s.report.tagNew := by rw [before]
  rw [tag, tagNew, ← tag_before, ← new_before]
  exact ⟨quiet, marks⟩

theorem givesUp_iff {s : State} {i k : Nat} :
    (s.tile k).GivesUp (s.now + 1) (s.commit.showing.map (·.id)) i ↔
    ((s.tile k).stopAt = some (s.now + 1) ∨
      ∃ plate x0 y0 fill tr, ∃ (j : Nat) (e' : ShowEntry), i < j ∧ s.commit.showing[j]? = some e' ∧
        ⟨s.now + 1, .scene plate x0 y0 fill tr e'.id⟩ ∈ (s.tile k).switches) := by
  refine or_congr_right ⟨?_, ?_⟩
  · rintro ⟨sw, here, n, plate, x0, y0, fill, tr, id, rfl, j, later, at_j⟩
    obtain ⟨there, now⟩ := List.mem_filter.1 here
    rw [List.getElem?_map, Option.map_eq_some_iff] at at_j
    obtain ⟨e', at_j, rfl⟩ := at_j
    obtain rfl : n = s.now + 1 := by simpa using now
    exact ⟨plate, x0, y0, fill, tr, j, e', later, at_j, there⟩
  · rintro ⟨plate, x0, y0, fill, tr, j, e', later, at_j, there⟩
    refine ⟨_, List.mem_filter.2 ⟨there, by simp⟩, s.now + 1, plate, x0, y0, fill, tr, e'.id, rfl, j, later, ?_⟩
    rw [List.getElem?_map, at_j, Option.map_some]


/-- The frame start at which tile k gives up the entry at position i of the showing table (R90, R97). -/
def State.GivesUp (s : State) (i k : Nat) : Prop :=
  k < 16 ∧ ((s.tile k).stopAt = some (s.now + 1) ∨
    ∃ plate x0 y0 fill tr, ∃ (j : Nat) (e' : ShowEntry), i < j ∧ s.commit.showing[j]? = some e' ∧
      ⟨s.now + 1, .scene plate x0 y0 fill tr e'.id⟩ ∈ (s.tile k).switches)

theorem completed_showing {s : State} (distinct : (s.commit.showing.map (·.id)).Nodup) :
    ((frameScanned s).reaching.foldl completeReaching (frameScanned s)).commit.showing =
      (frameScanned s).commit.showing.map (ShowEntry.atFrame (s.now + 1)) := by
  have scanned : ((frameScanned s).commit.showing.map (·.id)).Nodup := by
    rw [(frameScanned_released distinct).ids]
    exact distinct
  have now := frameScanned_now s
  generalize frameScanned s = f at *
  rw [completions_commit]
  refine List.map_congr_left fun e there => ?_
  rw [ShowEntry.atFrame, reaching_shows scanned there, now]

section
variable {s t : State} (done : FrameEnd (untilRefresh s) t) (distinct : (s.commit.showing.map (·.id)).Nodup)
include done distinct

/-- What a frame start does to one entry of the showing table. -/
theorem FrameEnd.showEntry {i : Nat} {e : ShowEntry} (here : s.commit.showing[i]? = some e) :
    ∃ e' ∈ (frameScanned s).commit.showing, e' = { e with held := e'.held } ∧
      (e.held.Nodup → ∀ k, k ∈ e'.held ↔ k ∈ e.held ∧ ¬ s.GivesUp i k) ∧
      ∀ x, x ∈ t.commit.showing ∧ x.id = e.id ↔ x = e'.atFrame (s.now + 1) ∧ x.released = false := by
  have table := done.table distinct
  have scanned := frameScanned_released distinct
  generalize frameScanned s = f at *
  obtain ⟨e', here'⟩ : ∃ e', f.commit.showing[i]? = some e' :=
    ⟨_, List.getElem?_eq_getElem (scanned.length ▸ (List.getElem?_eq_some_iff.1 here).1)⟩
  obtain ⟨same, held⟩ := scanned.entry i e e' here here'
  have there' := List.mem_of_getElem? here'
  have id : e'.id = e.id := by rw [same]
  refine ⟨e', there', same, fun once k => ?_, fun x => ?_⟩
  · rw [(held once).2, givesUp_iff, State.GivesUp]
  · rw [table, List.mem_filter, List.mem_map]
    constructor
    · rintro ⟨⟨⟨y, there, rfl⟩, stays⟩, sameId⟩
      have : y = e' := List.inj_on_of_nodup_map (scanned.ids ▸ distinct) there there' (sameId.trans id.symm)
      exact ⟨by rw [this], by simpa using stays⟩
    · rintro ⟨rfl, stays⟩
      exact ⟨⟨⟨e', there', rfl⟩, by simpa using stays⟩, id⟩

/-- The RELEASED writes that a frame start hands on are those of the entries that leave the table (R93). -/
theorem FrameEnd.releasedCount (record : Nat) : handedCount record .released t = handedCount record .released s +
    s.commit.showing.countP (fun e =>
      !e.keep && e.id.record == record && !t.commit.showing.any (fun e' => e'.id == e.id)) := by
  have count : handedCount record .released (frameReleased s) = handedCount record .released s +
      (((frameScanned s).commit.showing.map (ShowEntry.atFrame (s.now + 1))).filter (·.released)).countP
        (fun e => !e.keep && e.id.record == record) := by
    have finished : frameReleased s =
        releaseScenes ((frameScanned s).reaching.foldl completeReaching (frameScanned s)) := by rw [frameReleased]
    have received := (received_frameScanned s).released record
    rw [finished, releaseScenes_count, completed_showing distinct, completions_released, received]
  rw [done.handedCount_eq, count, Nat.add_left_cancel_iff]
  have table := done.table distinct
  have scanned := frameScanned_released distinct
  generalize frameScanned s = f at *
  have gone {e : ShowEntry} (there : e ∈ f.commit.showing.map (ShowEntry.atFrame (s.now + 1))) :
      e.released = !t.commit.showing.any (fun e' => e'.id == e.id) := by
    have once : ((f.commit.showing.map (ShowEntry.atFrame (s.now + 1))).map (·.id)).Nodup := by
      rw [List.map_map]
      exact scanned.ids ▸ distinct
    rw [table]
    cases released : e.released with
    | false =>
      refine (Bool.not_eq_eq_eq_not.2 ?_).symm
      exact List.any_eq_true.2 ⟨e, List.mem_filter.2 ⟨there, by simp [released]⟩, by simp⟩
    | true =>
      refine (Bool.not_eq_eq_eq_not.2 ?_).symm
      refine List.any_eq_false.2 fun x here same => ?_
      obtain ⟨there', stays⟩ := List.mem_filter.1 here
      obtain rfl := List.inj_on_of_nodup_map once there' there (by simpa using same)
      simp [released] at stays
  let outcome (x : PassId × Bool) : Bool :=
    !x.2 && x.1.record == record && !t.commit.showing.any (fun e' => e'.id == x.1)
  calc _ = (f.commit.showing.map (ShowEntry.atFrame (s.now + 1))).countP (fun e => outcome (e.id, e.keep)) := by
        rw [List.countP_filter]
        refine List.countP_congr fun e there => ?_
        rw [gone there]
    _ = (f.commit.showing.map (fun e => (e.id, e.keep))).countP outcome := by
        rw [List.countP_map, List.countP_map]
        rfl
    _ = (s.commit.showing.map (fun e => (e.id, e.keep))).countP outcome := by
        rw [scanned.map (fun e => (e.id, e.keep)) fun _ _ => rfl]
    _ = _ := List.countP_map ..

theorem FrameEnd.sceneEntry {i : Nat} {e : ShowEntry} (here : s.commit.showing[i]? = some e) (once : e.held.Nodup) :
    (e.visible = s.now + 1 → e.shown = false →
      Handed e.id.record (.sceneShown e.degraded e.clipped e.overBudget) t) ∧
    (∀ e' ∈ t.commit.showing, e'.id = e.id →
      e' = { e with shown := e.shown || decide (e.visible = s.now + 1), held := e'.held } ∧
        ∀ k, k ∈ e'.held ↔ k ∈ e.held ∧ ¬ s.GivesUp i k) ∧
    ((e.shown || decide (e.visible = s.now + 1)) = true → (∀ k ∈ e.held, s.GivesUp i k) →
      (∀ e' ∈ t.commit.showing, e'.id ≠ e.id) ∧ (e.keep = false → Handed e.id.record .released t)) ∧
    ((e.shown || decide (e.visible = s.now + 1)) = false ∨ (∃ k ∈ e.held, ¬ s.GivesUp i k) →
      ∃ e' ∈ t.commit.showing, e'.id = e.id) := by
  obtain ⟨e', there, same, sets, last⟩ := done.showEntry distinct here
  have held := sets once
  have shown : (e'.atFrame (s.now + 1)).shown = (e.shown || decide (e.visible = s.now + 1)) := by
    rw [same, ShowEntry.atFrame]
  have released : (e'.atFrame (s.now + 1)).released =
      ((e.shown || decide (e.visible = s.now + 1)) && e'.held.isEmpty) := by
    rw [ShowEntry.released, shown]
    rfl
  have empty : e'.held.isEmpty = true ↔ ∀ k ∈ e.held, s.GivesUp i k := by
    rw [List.isEmpty_iff, List.eq_nil_iff_forall_not_mem]
    refine forall_congr' fun k => ?_
    rw [held, not_and, not_not]
  have stays_iff : (∃ x ∈ t.commit.showing, x.id = e.id) ↔ (e'.atFrame (s.now + 1)).released = false := by
    constructor
    · rintro ⟨x, stays, id⟩
      obtain ⟨rfl, kept⟩ := (last x).1 ⟨stays, id⟩
      exact kept
    · intro kept
      obtain ⟨stays, id⟩ := (last _).2 ⟨rfl, kept⟩
      exact ⟨_, stays, id⟩
  refine ⟨fun now hidden => ?_, fun x stays id => ?_, fun visible all => ⟨fun x stays id => ?_, fun keep => ?_⟩,
    fun kept => stays_iff.2 ?_⟩
  · have reaches : .scene e' ∈ (frameScanned s).reaching := by
      refine (scene_mem_reaching _ e').2 ⟨there, ?_, ?_⟩
      · rw [frameScanned_now, same, ← now]
      · rw [same, ← hidden]
    have handed := completions_shown reaches (frameScanned s)
    rw [same] at handed
    exact (handed.mono (handsOn_completed s)).mono done.handsOn
  · obtain ⟨rfl, -⟩ := (last x).1 ⟨stays, id⟩
    refine ⟨?_, held⟩
    rw [ShowEntry.atFrame]
    dsimp only
    rw [same]
  · have kept := stays_iff.1 ⟨x, stays, id⟩
    rw [released, visible, empty.2 all] at kept
    cases kept
  · have left : (e'.atFrame (s.now + 1)).released = true := by
      rw [released, visible, empty.2 all]
      rfl
    have finished : frameReleased s =
        releaseScenes ((frameScanned s).reaching.foldl completeReaching (frameScanned s)) := by rw [frameReleased]
    have handed := releaseScenes_handed
      (s := (frameScanned s).reaching.foldl completeReaching (frameScanned s)) (e := e'.atFrame (s.now + 1))
      (by rw [completed_showing distinct]; exact List.mem_map_of_mem there) left (by rw [ShowEntry.atFrame, same, ← keep])
    rw [← finished] at handed
    have id : (e'.atFrame (s.now + 1)).id = e.id := by rw [ShowEntry.atFrame, same]
    rw [id] at handed
    exact (handed.mono (handsOn_released s)).mono done.handsOn
  · rw [released, Bool.and_eq_false_iff]
    refine kept.imp_right fun ⟨k, there, stays⟩ => ?_
    rw [Bool.eq_false_iff]
    exact fun none => stays (empty.1 none k there)

end

section
variable {s t : State} (done : FrameEnd (untilRefresh s) t)
include done

theorem FrameEnd.dueEntry {d : DueEntry} (there : d ∈ s.commit.due) :
    (d.visible = s.now + 1 → ∃ refused,
      Handed d.record (if d.keep then .keepShown d.visible d.slip d.late refused
        else .done d.visible d.slip d.late refused) t ∧
      (((∀ entries, d.body ≠ .trim entries) ∨ d.persist = false) → refused = false) ∧
      (∀ entries, d.body = .trim entries → d.persist = true → s.store.job.isSome = true → refused = true)) ∧
    (d.visible ≠ s.now + 1 → (∀ x ∈ s.commit.due, x.visible = s.now + 1 → x.pass ≠ d.pass) → d ∈ t.commit.due) := by
  have scanned : (frameScanned s).commit.due = s.commit.due := by rw [(received_frameScanned s).commit]
  have store : (frameScanned s).store = s.store := (onlyIn_frameScanned s).store
  have mem_reaching (x : DueEntry) : .due x ∈ (frameScanned s).reaching ↔ x ∈ s.commit.due ∧ x.visible = s.now + 1 := by
    rw [due_mem_reaching, scanned, frameScanned_now]
  refine ⟨fun now => ?_, fun later others => done.dueList.1 (List.mem_filter.2 ⟨there, ?_⟩)⟩
  · obtain ⟨refused, handed, quiet, taken⟩ := completions_done ((mem_reaching d).2 ⟨there, now⟩) (frameScanned s)
    refine ⟨refused, (handed.mono (handsOn_completed s)).mono done.handsOn, fun none => quiet ?_, ?_⟩
    · rw [Bool.eq_false_iff, Ne, persists_iff, not_and, not_exists]
      exact fun persist entries body => none.elim (fun h => h entries body) (fun h => by rw [persist] at h; cases h)
    · rwa [store] at taken
  · rw [Bool.not_eq_true', List.any_eq_false]
    intro x reaches completes
    cases x with
    | scene e => cases completes
    | due x =>
      obtain ⟨here, now⟩ := (mem_reaching x).1 reaches
      exact others x here now (by simpa [Reaching.completes] using completes)

end

/-- Settles O13: no step but the named ones touches a committed scene; over a frame start every entry of the showing
table and of the due list is followed through the taking of switches, the completions and the releases. -/
theorem committedScenesStand : Obligations.CommittedScenesStand := by
  refine ⟨fun c s t frame skip wall device ran => stand_exec frame skip wall device ran,
    fun s running fresh distinct => ?_⟩
  obtain ⟨t, ran, done⟩ := frameStart_ends running fresh
  have scanned : (frameScanned s).commit.due = s.commit.due := by rw [(received_frameScanned s).commit]
  have mem_reaching (x : DueEntry) : .due x ∈ (frameScanned s).reaching ↔ x ∈ s.commit.due ∧ x.visible = s.now + 1 := by
    rw [due_mem_reaching, scanned, frameScanned_now]
  obtain ⟨quiet, marks⟩ := frameReleased_tags s
  refine ⟨t, ran, fun i e here once => done.sceneEntry distinct here once, done.releasedCount distinct,
    fun d there => ?_, fun d there => done.dueEntry there, fun none => ?_, fun ⟨d, there, now, tag, mark⟩ => ?_⟩
  · rcases done.dueList.2 d there with waits | later
    · obtain ⟨here, stays⟩ := List.mem_filter.1 waits
      rw [Bool.not_eq_true', List.any_eq_false] at stays
      exact fun now => stays _ ((mem_reaching d).2 ⟨here, now⟩) (by simp [Reaching.completes])
    · exact later
  · rw [done.tags, untilRefresh_report]
    refine quiet fun x reaches => ?_
    cases x with
    | scene e => rfl
    | due d =>
      obtain ⟨here, now⟩ := (mem_reaching d).1 reaches
      cases body : d.body with
      | mark tag => exact absurd body (none d here now tag)
      | scene b => simp [Reaching.tag?, body]
      | trim b => simp [Reaching.tag?, body]
      | clock b => simp [Reaching.tag?, body]
  · rw [done.tags, untilRefresh_report]
    obtain ⟨new, x, reaches, last⟩ := marks ⟨.due d, (mem_reaching d).2 ⟨there, now⟩, by simp [Reaching.tag?, mark]⟩
    refine ⟨new, ?_⟩
    cases x with
    | scene e => cases last
    | due x =>
      obtain ⟨here, now⟩ := (mem_reaching x).1 reaches
      refine ⟨x, here, now, ?_⟩
      cases body : x.body with
      | mark tag => simpa [Reaching.tag?, body] using last
      | scene b => simp [Reaching.tag?, body] at last
      | trim b => simp [Reaching.tag?, body] at last
      | clock b => simp [Reaching.tag?, body] at last

end Sys2Proof.Machine
end

section
/-! The Settings Store Controller's jobs (R94, R162, R163, R169 to R173). -/

set_option Elab.async false

namespace Sys2Proof.Machine

/-! ## The content of a TRIM job (R172) -/

/-- One entry's codes put into a content. -/
def TrimEntry.put (c : List Byte) (e : TrimEntry) : List Byte :=
  let c' := match e.street with
    | some v => c.set (streetPosition e.tile) (BitVec.ofNat 8 v)
    | none => c
  match e.dusk with
  | some v => c'.set (duskPosition e.tile) (BitVec.ofNat 8 v)
  | none => c'

theorem trimContent_eq (image : List (Option Byte)) (entries : List TrimEntry) :
    trimContent image entries = entries.foldl TrimEntry.put (image.map (·.getD 0)) := rfl

/-- The positions whose bytes an entry's codes take. -/
def TrimEntry.Leaves (p : Nat) (e : TrimEntry) : Prop :=
  (e.street ≠ none → p ≠ 98 + 2 * e.tile) ∧ (e.dusk ≠ none → p ≠ 99 + 2 * e.tile)

theorem getD_set_self {c : List Byte} {p : Nat} (small : p < c.length) (v : Byte) : (c.set p v).getD p 0 = v := by
  rw [List.getD_eq_getElem?_getD, List.getElem?_set_self small, Option.getD_some]

theorem getD_set_of_ne {c : List Byte} {p q : Nat} (other : q ≠ p) (v : Byte) : (c.set p v).getD q 0 = c.getD q 0 := by
  rw [List.getD_eq_getElem?_getD, List.getElem?_set_ne other.symm, List.getD_eq_getElem?_getD]

theorem TrimEntry.put_length (c : List Byte) (e : TrimEntry) : (e.put c).length = c.length := by
  unfold TrimEntry.put
  cases e.street <;> cases e.dusk <;> simp

theorem TrimEntry.put_of_leaves {p : Nat} {e : TrimEntry} (h : e.Leaves p) (c : List Byte) :
    (e.put c).getD p 0 = c.getD p 0 := by
  obtain ⟨street, dusk⟩ := h
  have first : ∀ c : List Byte, (match e.street with
      | some v => c.set (streetPosition e.tile) (BitVec.ofNat 8 v)
      | none => c).getD p 0 = c.getD p 0 := by
    intro c
    cases code : e.street with
    | none => rfl
    | some v => exact getD_set_of_ne (street (by simp [code])) _
  unfold TrimEntry.put
  cases code : e.dusk with
  | none => exact first c
  | some v => exact (getD_set_of_ne (dusk (by simp [code])) _).trans (first c)

theorem TrimEntry.put_dusk {c : List Byte} {e : TrimEntry} {v : Nat} (code : e.dusk = some v)
    (small : 99 + 2 * e.tile < c.length) : (e.put c).getD (99 + 2 * e.tile) 0 = BitVec.ofNat 8 v := by
  unfold TrimEntry.put
  rw [code]
  refine getD_set_self ?_ _
  cases e.street with
  | none => exact small
  | some w =>
    rw [List.length_set]
    exact small

theorem TrimEntry.put_street {c : List Byte} {e : TrimEntry} {v : Nat} (code : e.street = some v)
    (small : 98 + 2 * e.tile < c.length) : (e.put c).getD (98 + 2 * e.tile) 0 = BitVec.ofNat 8 v := by
  unfold TrimEntry.put
  rw [code]
  cases e.dusk with
  | none => exact getD_set_self small _
  | some w =>
    refine (getD_set_of_ne ?_ _).trans (getD_set_self small _)
    rw [duskPosition]
    omega

theorem puts_length (entries : List TrimEntry) (c : List Byte) : (entries.foldl TrimEntry.put c).length = c.length := by
  induction entries generalizing c with
  | nil => rfl
  | cons e rest ih => rw [List.foldl_cons, ih, e.put_length]

theorem puts_of_leaves {entries : List TrimEntry} {p : Nat} (h : ∀ e ∈ entries, e.Leaves p) (c : List Byte) :
    (entries.foldl TrimEntry.put c).getD p 0 = c.getD p 0 := by
  induction entries generalizing c with
  | nil => rfl
  | cons e rest ih =>
    rw [List.foldl_cons, ih (fun x there => h x (List.mem_cons_of_mem e there)), e.put_of_leaves (h e List.mem_cons_self)]

/-- With one entry to a tile, each entry's own codes stand in the content. -/
theorem puts_of_mem {entries : List TrimEntry} (distinct : (entries.map (·.tile)).Nodup) {e : TrimEntry}
    (there : e ∈ entries) {c : List Byte} (small : 99 + 2 * e.tile < c.length) :
    (∀ v, e.street = some v → (entries.foldl TrimEntry.put c).getD (98 + 2 * e.tile) 0 = BitVec.ofNat 8 v) ∧
    (∀ v, e.dusk = some v → (entries.foldl TrimEntry.put c).getD (99 + 2 * e.tile) 0 = BitVec.ofNat 8 v) := by
  obtain ⟨before, after, rfl⟩ := List.append_of_mem there
  rw [List.map_append, List.map_cons, List.nodup_append] at distinct
  obtain ⟨-, last, -⟩ := distinct
  obtain ⟨fresh, -⟩ := List.nodup_cons.1 last
  have apart {x : TrimEntry} (later : x ∈ after) : x.tile ≠ e.tile :=
    fun same => fresh (same ▸ List.mem_map_of_mem later)
  have small' : 99 + 2 * e.tile < (before.foldl TrimEntry.put c).length := by rwa [puts_length]
  rw [List.foldl_append, List.foldl_cons]
  refine ⟨fun v code => ?_, fun v code => ?_⟩
  · rw [puts_of_leaves fun x later => ⟨fun _ => ?_, fun _ => ?_⟩, TrimEntry.put_street code (by omega)]
    · exact fun same => apart later (by omega)
    · omega
  · rw [puts_of_leaves fun x later => ⟨fun _ => ?_, fun _ => ?_⟩, TrimEntry.put_dusk code small']
    · omega
    · exact fun same => apart later (by omega)

theorem known_getD (image : List (Option Byte)) (p : Nat) :
    (image.map (·.getD 0)).getD p 0 = (image.getD p none).getD 0 := by
  rw [List.getD_eq_getElem?_getD, List.getD_eq_getElem?_getD, List.getElem?_map]
  cases image[p]? <;> rfl

/-! ## One byte write -/

theorem knownBytes_of_unknown {image : List (Option Byte)} (h : none ∈ image) : knownBytes image = none := by
  induction image with
  | nil => cases h
  | cons b rest ih =>
    cases b with
    | none => rfl
    | some b =>
      have : none ∈ rest := by simpa using h
      rw [knownBytes, ih this, Option.map_none]

theorem imageValid_of_unknown {image : List (Option Byte)} (h : none ∈ image) : imageValid image = false := by
  rw [imageValid, imageContent, knownBytes_of_unknown h]
  rfl

theorem endJob_store (kind : JobKind) (outcome : JobOutcome) (s : State) :
    (endJob kind outcome s).store = { s.store with job := none, state := .idle, result := some (kind, outcome) } := by
  unfold endJob
  dsimp only
  split <;> rfl

theorem endJob_report (kind : JobKind) (outcome : JobOutcome) (s : State) :
    (endJob kind outcome s).report = { s.report with resultNew := true } := by
  unfold endJob
  dsimp only
  split <;> rfl

theorem endJob_main {kind : JobKind} {c : Command} (waits : kind.command = some c) (outcome : JobOutcome) {s : State}
    (busy : s.window.main = some ⟨c.code, .busy⟩) : (endJob kind outcome s).window.main = some ⟨c.code, .done⟩ := by
  unfold endJob
  rw [waits]
  exact Window.finish_main busy

section
variable {kind : JobKind} {p : Nat} {v : Byte} {rest : List (Nat × Byte)} {s : State}
  (job : s.store.job = some ⟨kind, (p, v) :: rest⟩)
include job

theorem byteWritten_next (more : rest ≠ []) : byteWritten s =
    (s.setStore (s.store.wrote p v (some v))).setStore { s.store.wrote p v (some v) with job := some ⟨kind, rest⟩ } := by
  unfold byteWritten
  rw [job]
  exact if_neg more

theorem byteWritten_last (last : rest = []) :
    byteWritten s = endJob kind .done (s.setStore (s.store.wrote p v (some v))) := by
  unfold byteWritten
  rw [job]
  exact if_pos last

theorem byteFailed_eq : byteFailed s = endJob kind .failed
    ((s.setStore (s.store.wrote p (failedByte kind p (Config.freeByte s.freeIndex)) none)).setFreeIndex
      (s.freeIndex + 1)) := by
  unfold byteFailed
  rw [job]

end

theorem failedByte_ne_marker {kind : JobKind} (other : kind ≠ .trim) (free : Byte) : failedByte kind 0 free ≠ 0xA5 := by
  unfold failedByte
  split
  · decide
  · next h => exact fun same => h ⟨other, rfl, same⟩

/-! ## A job offered at a frame start -/

theorem offerTrimJob_store {s : State} (free : s.store.job = none) (entries : List TrimEntry) :
    let writes := contentWrites s.store.image (trimContent s.store.image entries)
    (s.store.valid = false →
      (offerTrimJob entries s).1.store = { s.store with state := .idle, result := some (.trim, .noImage) } ∧
      (offerTrimJob entries s).1.report.resultNew = true) ∧
    (s.store.valid = true → writes ≠ [] →
      (offerTrimJob entries s).1.store = { s.store with job := some ⟨.trim, writes⟩, state := .writing } ∧
      (offerTrimJob entries s).1.report.resultNew = s.report.resultNew) ∧
    (s.store.valid = true → writes = [] →
      (offerTrimJob entries s).1.store = { s.store with state := .idle, result := some (.trim, .done) } ∧
      (offerTrimJob entries s).1.report.resultNew = true) := by
  have emptied (outcome : JobOutcome) :
      (endJob .trim outcome s).store = { s.store with state := .idle, result := some (.trim, outcome) } := by
    rw [endJob_store, ← free]
  dsimp only
  unfold offerTrimJob placeJob
  rw [if_neg (by rw [free]; decide)]
  refine ⟨fun bad => ?_, fun good some => ?_, fun good none => ?_⟩
  · rw [if_neg (by rw [bad]; decide)]
    exact ⟨emptied .noImage, by rw [endJob_report]⟩
  · rw [if_pos good, if_neg some]
    exact ⟨rfl, rfl⟩
  · rw [if_pos good, if_pos none]
    exact ⟨emptied .done, by rw [endJob_report]⟩

theorem completeDue_store {d : DueEntry} {entries : List TrimEntry} (body : d.body = .trim entries)
    (persist : d.persist = true) (s : State) : ∃ u, u.store = s.store ∧ u.report = s.report ∧
      (completeDue d s).store = (offerTrimJob entries u).1.store ∧
      (completeDue d s).report.resultNew = (offerTrimJob entries u).1.report.resultNew := by
  refine ⟨s.setCommit { s.commit with due := s.commit.due.filter (fun x => x.pass != d.pass) }, rfl, rfl, ?_⟩
  rw [completeDue]
  dsimp only
  rw [(onlyIn_handOn _ _ _).store, handOn_report, dueEffect_of_persist body persist]
  exact ⟨rfl, rfl⟩

theorem onlyIn_releaseScenes_store (s : State) :
    (releaseScenes s).store = s.store ∧ (releaseScenes s).report.resultNew = s.report.resultNew := by
  rw [(onlyIn_releaseScenes s).store, releaseScenes_report]
  exact ⟨rfl, rfl⟩

/-- The store over a frame start is the store over its completions. -/
theorem untilRefresh_store (s : State) :
    (untilRefresh s).store = ((frameScanned s).reaching.foldl completeReaching (frameScanned s)).store ∧
    (untilRefresh s).report.resultNew =
      ((frameScanned s).reaching.foldl completeReaching (frameScanned s)).report.resultNew := by
  have store : (untilRefresh s).store = (frameReleased s).store := by
    rw [(onlyIn_untilRefresh_frameStopped s).store, frameStopped, (onlyIn_completeStop _).store]
  have finished : frameReleased s =
      releaseScenes ((frameScanned s).reaching.foldl completeReaching (frameScanned s)) := by rw [frameReleased]
  rw [store, untilRefresh_report, finished]
  exact onlyIn_releaseScenes_store _

theorem frameScanned_store (s : State) :
    (frameScanned s).store = s.store ∧ (frameScanned s).report.resultNew = s.report.resultNew := by
  refine ⟨(onlyIn_frameScanned s).store, ?_⟩
  rw [(received_frameScanned s).report]

/-- The one cue of a frame that offers a job stands between cues that offer none. -/
theorem reaching_split {s : State} {d : DueEntry}
    (one : s.commit.due.filter (fun x => x.visible == s.now && x.persists) = [d]) :
    ∃ before after, s.reaching = before ++ .due d :: after ∧ (∀ x ∈ before, x.offers = false) ∧
      ∀ x ∈ after, x.offers = false := by
  have offered : s.reaching.filter (·.offers) = [.due d] := by
    have perm := (reaching_perm s).filter (·.offers)
    have scenes : ((s.commit.showing.filter (fun e => e.visible == s.now && !e.shown)).map Reaching.scene).filter
        (·.offers) = [] := by
      rw [List.filter_map, List.filter_eq_nil_iff.2 (fun e _ => by simp [Reaching.offers]), List.map_nil]
    have dues : ((s.commit.due.filter (fun e => e.visible == s.now)).map Reaching.due).filter (·.offers) = [.due d] := by
      rw [List.filter_map, List.filter_filter]
      refine (congrArg (List.map Reaching.due) ?_).trans (congrArg (List.map Reaching.due) one)
      refine List.filter_congr fun x _ => ?_
      exact Bool.and_comm _ _
    rw [List.filter_append, scenes, dues, List.append_nil] at perm
    exact List.perm_singleton.1 perm
  obtain ⟨before, after, split, none, -, rest⟩ := List.filter_eq_cons_iff.1 offered
  refine ⟨before, after, split, fun x here => ?_, fun x here => ?_⟩
  · exact Bool.eq_false_iff.2 (none x here)
  · exact Bool.eq_false_iff.2 (List.filter_eq_nil_iff.1 rest x here)

/-- The completions of a frame in which one cue offers a job. -/
theorem completions_offer {s : State} {d : DueEntry} {entries : List TrimEntry} (body : d.body = .trim entries)
    (persist : d.persist = true) (free : s.store.job = none)
    (one : s.commit.due.filter (fun x => x.visible == s.now && x.persists) = [d]) :
    ∃ u, u.store = s.store ∧ u.report.resultNew = s.report.resultNew ∧
      (s.reaching.foldl completeReaching s).store = (offerTrimJob entries u).1.store ∧
      (s.reaching.foldl completeReaching s).report.resultNew = (offerTrimJob entries u).1.report.resultNew ∧
      Handed d.record (if d.keep then .keepShown d.visible d.slip d.late false
        else .done d.visible d.slip d.late false) (s.reaching.foldl completeReaching s) := by
  obtain ⟨before, after, split, quiet, quiet'⟩ := reaching_split one
  rw [split, List.foldl_append, List.foldl_cons]
  obtain ⟨store, news⟩ := completions_quiet quiet s
  generalize before.foldl completeReaching s = a at *
  obtain ⟨store', news'⟩ := completions_quiet quiet' (completeReaching a (.due d))
  obtain ⟨u, same, report, offered, told⟩ := completeDue_store body persist a
  obtain ⟨refused, handed, -, -, accepted⟩ := completeDue_handed d a
  obtain rfl := accepted (by rw [store, free])
  refine ⟨u, same.trans store, (congrArg _ report).trans news, store'.trans offered, news'.trans told, ?_⟩
  exact handed.mono (handsOn_completions after _)

theorem frameStart_offers {s : State} {d : DueEntry} {entries : List TrimEntry} (running : s.ftg.running = true)
    (fresh : s.ftg.begun = false) (body : d.body = .trim entries) (persist : d.persist = true)
    (free : s.store.job = none)
    (one : s.commit.due.filter (fun x => x.visible == s.now + 1 && x.persists) = [d]) :
    ∃ t u, exec .frameStart s = .next t ∧
      Handed d.record (if d.keep then .keepShown d.visible d.slip d.late false
        else .done d.visible d.slip d.late false) t ∧
      u.store = s.store ∧ u.report.resultNew = s.report.resultNew ∧
      t.store = (offerTrimJob entries u).1.store ∧
      (untilRefresh s).report.resultNew = (offerTrimJob entries u).1.report.resultNew := by
  obtain ⟨t, ran, done⟩ := frameStart_ends running fresh
  obtain ⟨store, news⟩ := untilRefresh_store s
  obtain ⟨store_before, news_before⟩ := frameScanned_store s
  have handsOn := handsOn_completed s
  have now := frameScanned_now s
  have due : (frameScanned s).commit.due = s.commit.due := by rw [(received_frameScanned s).commit]
  have store_end := done.store
  have handsOn_end := done.handsOn
  clear done
  generalize frameScanned s = f at *
  generalize untilRefresh s = r at *
  obtain ⟨u, same, report, offered, told, handed⟩ :=
    completions_offer body persist (by rw [store_before, free]) (by rw [due, now, one])
  exact ⟨t, u, ran, (handed.mono handsOn).mono handsOn_end, same.trans store_before, report.trans news_before,
    store_end.trans (store.trans offered), news.trans told⟩

theorem frameStart_keeps_job {s : State} (running : s.ftg.running = true) (fresh : s.ftg.begun = false)
    (taken : s.store.job.isSome = true) : ∃ t, exec .frameStart s = .next t ∧ t.store = s.store ∧
      (untilRefresh s).report.resultNew = s.report.resultNew := by
  obtain ⟨t, ran, done⟩ := frameStart_ends running fresh
  obtain ⟨store, news⟩ := untilRefresh_store s
  obtain ⟨store_before, news_before⟩ := frameScanned_store s
  have store_end := done.store
  clear done
  generalize frameScanned s = f at *
  generalize untilRefresh s = r at *
  obtain ⟨same, told⟩ := completions_job (l := f.reaching) (s := f) (by rw [store_before]; exact taken)
  exact ⟨t, ran, store_end.trans (store.trans (same.trans store_before)), news.trans (told.trans news_before)⟩

/-- Settles O60: each byte write on the store's own record, and a job offered at a frame start by splitting that frame's
completions at the cue that offers it. -/
theorem byteWritesCarryTheJob : Obligations.ByteWritesCarryTheJob := by
  refine ⟨fun d entries s running fresh body free one => ?_, fun s running fresh taken =>
    frameStart_keeps_job running fresh taken, fun image entries whole distinct small => ?_, fun kind p v rest s job => ?_⟩
  case refine_1 =>
    have single : s.commit.due.filter (fun x => x.visible == s.now + 1 && x.persists) = [d] := by
      rw [← one]
      refine List.filter_congr fun x _ => ?_
      rw [Bool.and_assoc]
      cases h : x.body <;> simp [DueEntry.persists, h]
    have picked : d ∈ s.commit.due.filter (fun x => x.visible == s.now + 1 && x.persists) := by
      rw [single]
      exact List.mem_cons_self
    obtain ⟨persist, -⟩ := (persists_iff d).1 (by simpa using (Bool.and_eq_true_iff.1 (List.mem_filter.1 picked).2).2)
    obtain ⟨t, u, ran, handed, store, report, last, news⟩ := frameStart_offers running fresh body persist free single
    obtain ⟨bad, writes, idle⟩ := offerTrimJob_store (s := u) (by rw [store, free]) entries
    rw [store, report, ← last, ← news] at *
    exact ⟨t, ran, handed, bad, writes, idle⟩
  case refine_2 =>
    have length : (image.map (·.getD 0)).length = 512 := by rw [List.length_map, whole]
    refine ⟨?_, fun e there => ?_, fun p leaves => ?_⟩
    · rw [trimContent_eq, puts_length, length]
    · rw [trimContent_eq]
      exact puts_of_mem distinct there (by have := small e there; omega)
    · rw [trimContent_eq, puts_of_leaves leaves, known_getD]
  case refine_3 =>
    refine ⟨fun more => ⟨_, rfl, ?_, ?_⟩, fun last => ⟨_, rfl, onlyIn_byteWritten s, ?_, ?_, ?_, ?_⟩,
      ⟨_, rfl, onlyIn_byteFailed s, ?_⟩⟩
    · rw [byteWritten_next job more]
      exact (onlyIn_setStore s _).comp (onlyIn_setStore _ _)
    · rw [byteWritten_next job more]
      rfl
    · rw [byteWritten_last job last, endJob_store]
      rfl
    · rw [byteWritten_last job last, endJob_report]
      rfl
    · rintro rfl busy
      rw [byteWritten_last job last]
      exact endJob_main (c := .invalidateStore) rfl _ busy
    · rintro rfl busy
      rw [byteWritten_last job last]
      exact endJob_main (c := .adoptProfile) rfl _ busy
    · rw [byteFailed_eq job, endJob_store, endJob_report]
      refine ⟨rfl, rfl, rfl, rfl, rfl, rfl, fun small => ?_, fun j other => ?_, fun kind_ne at_marker there => ?_, ?_, ?_⟩
      · refine imageValid_of_unknown (List.mem_iff_getElem?.2 ⟨p, ?_⟩)
        exact List.getElem?_set_self small
      · exact getD_set_of_ne other _
      · obtain rfl := at_marker
        refine fun same => failedByte_ne_marker kind_ne (Config.freeByte s.freeIndex) (Eq.trans ?_ same)
        exact (getD_set_self there _).symm
      · rintro rfl busy
        exact endJob_main (c := .invalidateStore) rfl _ busy
      · rintro rfl busy
        exact endJob_main (c := .adoptProfile) rfl _ busy

end Sys2Proof.Machine
end

section
/-! The wall state, the profile and the beat (R1, R2, R97, R165, R166, R168, R178). -/

set_option Elab.async false

namespace Sys2Proof.Machine

/-! ## Steps that leave the control of the part alone -/

/-- The registers with the wall state, whether an ADOPT_PROFILE is at work, and whether STOP is busy unchanged. -/
def Window.SameControl (w w' : Window) : Prop :=
  w'.wall = w.wall ∧ w'.adoption.isSome = w.adoption.isSome ∧ w'.stopBusy = w.stopBusy

/-- Everything the control invariant speaks of unchanged, the beat with it. -/
structure Steady (s t : State) : Prop where
  profile : t.profile = s.profile
  running : t.ftg.running = s.ftg.running
  begun : t.ftg.begun = s.ftg.begun
  now : t.now = s.now
  stopFrame : t.commit.stopFrame = s.commit.stopFrame
  window : s.window.SameControl t.window

theorem Window.SameControl.trans {w w' w'' : Window} (h : w.SameControl w') (g : w'.SameControl w'') :
    w.SameControl w'' := ⟨g.1.trans h.1, g.2.1.trans h.2.1, g.2.2.trans h.2.2⟩

theorem Window.SameControl.of_main {w w' : Window} (wall : w'.wall = w.wall)
    (adoption : w'.adoption.isSome = w.adoption.isSome) (main : w'.main = w.main) : w.SameControl w' :=
  ⟨wall, adoption, by rw [Window.stopBusy, main, Window.stopBusy]⟩

theorem Steady.refl (s : State) : Steady s s := ⟨rfl, rfl, rfl, rfl, rfl, rfl, rfl, rfl⟩

theorem Steady.trans {s t u : State} (h : Steady s t) (g : Steady t u) : Steady s u :=
  ⟨g.profile.trans h.profile, g.running.trans h.running, g.begun.trans h.begun, g.now.trans h.now,
    g.stopFrame.trans h.stopFrame, h.window.trans g.window⟩

theorem Steady.controlInv {s t : State} (h : Steady s t) (inv : ControlInv s) : ControlInv t := by
  obtain ⟨wall, adoption, stopBusy⟩ := h.window
  obtain ⟨beat, adopted, adopting, stopping, busy⟩ := inv
  constructor
  · rw [h.running, h.profile, beat]
  · rw [h.profile, wall, adopted]
  · rw [adoption, wall]
    exact adopting
  · rw [h.stopFrame, wall, stopping]
  · rw [stopBusy, wall, busy]

section
variable {ps : List Part} {s t : State}

theorem OnlyIn.steady_of_window (h : OnlyIn ps s t) (window : s.window.SameControl t.window)
    (hp : Part.profile ∉ ps := by decide) (hf : Part.ftg ∉ ps := by decide) (hc : Part.commit ∉ ps := by decide) :
    Steady s t := by
  have ftg := h.ftg hf
  exact ⟨h.profile hp, by rw [ftg], by rw [ftg], h.now hf, by rw [h.commit hc], window⟩

theorem OnlyIn.steady (h : OnlyIn ps s t) (hp : Part.profile ∉ ps := by decide) (hf : Part.ftg ∉ ps := by decide)
    (hc : Part.commit ∉ ps := by decide) (hw : Part.window ∉ ps := by decide) : Steady s t :=
  h.steady_of_window (by rw [h.window hw]; exact ⟨rfl, rfl, rfl⟩) hp hf hc

theorem OnlyIn.steady_of_commit (h : OnlyIn ps s t) (stopFrame : t.commit.stopFrame = s.commit.stopFrame)
    (hp : Part.profile ∉ ps := by decide) (hf : Part.ftg ∉ ps := by decide) (hw : Part.window ∉ ps := by decide) :
    Steady s t := by
  have ftg := h.ftg hf
  exact ⟨h.profile hp, by rw [ftg], by rw [ftg], h.now hf, stopFrame, by rw [h.window hw]; exact ⟨rfl, rfl, rfl⟩⟩

end

theorem steady_setWindow {s : State} {w : Window} (h : s.window.SameControl w) : Steady s (s.setWindow w) :=
  (onlyIn_setWindow s w).steady_of_window h

theorem steady_raise (c : Cause) (s : State) : Steady s (raise c s) :=
  (onlyIn_raise c s).steady_of_window (.of_main (raise_wall c s) (by rw [raise_adoption]) (raise_main c s))

theorem steady_dryEdge (before after : State) : Steady after (dryEdge before after) := by
  rcases dryEdge_eq before after with same | raised
  · rw [same]
    exact .refl _
  · rw [raised]
    exact steady_raise _ _

theorem steady_raiseIf (p : Prop) [Decidable p] (c : Cause) (s : State) : Steady s (if p then raise c s else s) := by
  split
  · exact steady_raise c s
  · exact .refl s

theorem LevelOnly.stopFrame {s t : State} (h : LevelOnly s t) : t.commit.stopFrame = s.commit.stopFrame := by rw [h]

/-! ## The CMD record -/

theorem Window.finish_adoption (c : Command) (r : Result) (w : Window) : (w.finish c r).adoption = w.adoption := by
  unfold Window.finish
  split
  · split <;> rfl
  · rfl

/-- Another command's result does not touch a busy STOP. -/
theorem Window.finish_stopBusy {c : Command} (other : c ≠ .stop) (r : Result) (w : Window) :
    (w.finish c r).stopBusy = w.stopBusy := by
  have code : c.code ≠ Command.stop.code := by
    cases c with
    | stop => exact absurd rfl other
    | _ => decide
  unfold Window.finish
  split
  · next x main =>
    split
    · next busy =>
      have before : w.stopBusy = false := by
        rw [Window.stopBusy, main, decide_eq_false_iff_not]
        intro same
        exact code (busy.1.symm.trans (congrArg CmdRecord.code (Option.some.inj same)))
      rw [before, Window.stopBusy, decide_eq_false_iff_not]
      intro same
      exact code (busy.1.symm.trans (congrArg CmdRecord.code (Option.some.inj same)))
    · rfl
  · rfl

theorem Window.finish_sameControl {c : Command} (other : c ≠ .stop) (r : Result) (w : Window) :
    w.SameControl (w.finish c r) :=
  ⟨w.finish_wall c r, by rw [Window.finish_adoption], w.finish_stopBusy other r⟩

theorem Window.busy_of_stopBusy {w : Window} (h : w.stopBusy = true) : w.busy = true := by
  have main : w.main = some ⟨Command.stop.code, .busy⟩ := by simpa [Window.stopBusy] using h
  rw [Window.busy, main]
  rfl

theorem Window.record_wall (code : Byte) (r : Result) (w : Window) : (w.record code r).wall = w.wall := by
  unfold Window.record
  split <;> rfl

theorem Window.record_adoption (code : Byte) (r : Result) (w : Window) :
    (w.record code r).adoption = w.adoption := by
  unfold Window.record
  split <;> rfl

/-- A record of anything but a STOP taken or a WALL_RESET taken leaves STOP busy or not as it was. -/
theorem Window.record_stopBusy {code : Byte} {r : Result} (stop : ¬ (code = Command.stop.code ∧ r = .busy))
    (reset : ¬ (code = Command.wallReset.code ∧ r = .accepted)) (w : Window) :
    (w.record code r).stopBusy = w.stopBusy := by
  unfold Window.record
  rw [decide_eq_false reset, Bool.false_and, Bool.not_false, Bool.and_true]
  split
  · rfl
  · next idle =>
    have before : w.stopBusy = false := Bool.eq_false_iff.2 fun busy => idle (Window.busy_of_stopBusy busy)
    rw [before, Window.stopBusy, decide_eq_false_iff_not]
    intro same
    have record := Option.some.inj same
    exact stop ⟨congrArg CmdRecord.code record, congrArg CmdRecord.result record⟩

/-- A WALL_RESET taken leaves no busy STOP. -/
theorem Window.record_reset_stopBusy (w : Window) : (w.record Command.wallReset.code .accepted).stopBusy = false := by
  unfold Window.record
  rw [decide_eq_true ⟨rfl, rfl⟩, Bool.true_and]
  split
  · next h =>
    have idle : w.stopBusy = false := by simpa using (Bool.and_eq_true_iff.1 h).2
    exact idle
  · rfl

theorem steady_record {code : Byte} {r : Result} (stop : ¬ (code = Command.stop.code ∧ r = .busy))
    (reset : ¬ (code = Command.wallReset.code ∧ r = .accepted)) (s : State) :
    Steady s (s.setWindow (s.window.record code r)) :=
  steady_setWindow ⟨Window.record_wall _ _ _, by rw [Window.record_adoption], Window.record_stopBusy stop reset _⟩

theorem judge_ne_busy {c : Command} {s : State} {r : Result} (h : judge c s = some r) : r ≠ .busy := by
  rintro rfl
  unfold judge at h
  split_ifs at h <;> cases h

/-- A command refused leaves the control alone; one taken does as its taking does. -/
theorem steady_command {c : Command} {take : State → State} {s : State} (h : judge c s = none → Steady s (take s)) :
    Steady s (command c take s) := by
  cases judged : judge c s with
  | none =>
    rw [command_taken take judged]
    exact h judged
  | some r =>
    rw [command_refused take judged]
    exact steady_record (fun same => judge_ne_busy judged same.2) (fun same => judge_ne_accepted judged same.2) s

theorem allowed_of_taken {c : Command} {s : State} (h : judge c s = none) : commandAllowed c s = true := by
  unfold judge at h
  split_ifs at h with loading locked allowed
  all_goals simpa using allowed

theorem idle_of_taken {c : Command} {s : State} (other : c ≠ .wallReset) (h : judge c s = none) :
    s.window.busy = false := by
  cases busy : s.window.busy with
  | false => rfl
  | true =>
    rw [judge_busy (allowed_of_taken h) other busy] at h
    cases h

/-! ## Blocks that keep the control -/

theorem steady_requestLevel (set : LevelSet) (s : State) : Steady s (requestLevel set s) :=
  (onlyIn_requestLevel set s).steady_of_commit (levelOnly_requestLevel set s).stopFrame

theorem steady_changeAmbient (s : State) : Steady s (changeAmbient s) :=
  ((onlyIn_setAmbient s _).steady.trans (steady_raise .ambient _)).trans (steady_requestLevel _ _)

theorem steady_judgeAmbient (average : Nat) (s : State) : Steady s (judgeAmbient average s) := by
  unfold judgeAmbient
  split
  · split
    · split
      · exact steady_changeAmbient s
      · exact (onlyIn_setAmbient s _).steady
    · exact (onlyIn_setAmbient s _).steady
  · exact .refl s
  · exact .refl s

theorem steady_takeReading (r : Nat) (s : State) : Steady s (takeReading r s) := by
  unfold takeReading
  exact ((onlyIn_setAmbient s _).steady.trans (steady_raiseIf _ .ambient _)).trans (steady_judgeAmbient _ _)

theorem steady_failReading (s : State) : Steady s (failReading s) := by
  unfold failReading
  dsimp only
  split
  · exact (onlyIn_setAmbient s _).steady
  · split
    · exact (onlyIn_setAmbient s _).steady.trans (steady_raise .ambient _)
    · exact (onlyIn_setAmbient s _).steady
  · split
    · exact (onlyIn_setAmbient s _).steady.trans (steady_raise .ambient _)
    · exact (onlyIn_setAmbient s _).steady

theorem steady_endJob (kind : JobKind) (outcome : JobOutcome) (s : State) : Steady s (endJob kind outcome s) := by
  unfold endJob
  dsimp only
  split
  · next c waits =>
    have other : c ≠ .stop := by
      rintro rfl
      cases kind <;> cases waits
    exact ((onlyIn_setStore s _).steady.trans (onlyIn_setReport _ _).steady).trans
      (steady_setWindow (Window.finish_sameControl other _ _))
  · exact (onlyIn_setStore s _).steady.trans (onlyIn_setReport _ _).steady

theorem steady_placeJob (kind : JobKind) (writes : List (Nat × Byte)) (s : State) :
    Steady s (placeJob kind writes s) := by
  unfold placeJob
  split
  · exact steady_endJob _ _ s
  · exact (onlyIn_setStore s _).steady

theorem steady_byteWritten (s : State) : Steady s (byteWritten s) := by
  unfold byteWritten
  split
  · exact .refl s
  · exact .refl s
  · dsimp only
    split
    · exact (onlyIn_setStore s _).steady.trans (steady_endJob _ _ _)
    · exact (onlyIn_setStore s _).steady.trans (onlyIn_setStore _ _).steady

theorem steady_byteFailed (s : State) : Steady s (byteFailed s) := by
  unfold byteFailed
  split
  · exact .refl s
  · exact .refl s
  · exact ((onlyIn_setStore s _).steady.trans (onlyIn_setFreeIndex _ _).steady).trans (steady_endJob _ _ _)

theorem steady_withAdoption {s : State} {a : Adoption} (there : s.window.adoption = some a) (b : Adoption) :
    Steady s (s.setWindow { s.window with adoption := some b }) :=
  steady_setWindow (.of_main rfl (by rw [there]; rfl) rfl)

theorem steady_countCarried (s : State) : Steady s (countCarried s) := by
  unfold countCarried
  split
  · next a there =>
    split
    · exact steady_withAdoption there _
    · exact .refl s
    · exact .refl s
  · exact .refl s

theorem steady_profileReadIssue (s : State) : Steady s (profileReadIssue s) := by
  unfold profileReadIssue
  split
  · next a there =>
    split
    · exact steady_withAdoption there _
    · exact .refl s
  · exact .refl s

theorem steady_grantProfile (s : State) : Steady s (grantProfile s) := by
  unfold grantProfile
  split
  · next a there => exact steady_withAdoption there _
  · exact .refl s

theorem steady_grantHost (s : State) : Steady s (grantHost s) := by
  unfold grantHost
  split
  · exact .refl s
  · split
    · exact (onlyIn_setPort s _).steady.trans (steady_countCarried _)
    · dsimp only
      split
      · exact ((onlyIn_setMem s _).steady.trans (onlyIn_setPort _ _).steady).trans (steady_countCarried _)
      · exact (onlyIn_setMem s _).steady.trans (onlyIn_setPort _ _).steady

theorem steady_grantPlate (index : Nat) (s : State) : Steady s (grantPlate index s) := by
  unfold grantPlate
  split
  · exact .refl s
  · exact (onlyIn_setCommit s _).steady_of_commit rfl

theorem steady_grantPlace4 (s : State) : Steady s (grantPlace4 s) := by
  unfold grantPlace4
  split
  · exact steady_grantPlate _ s
  · split
    · exact (onlyIn_grantFollower s).steady
    · split
      · exact steady_grantProfile s
      · exact (onlyIn_grantOther s).steady

theorem steady_grantDecision (s : State) : Steady s (grantDecision s) := by
  unfold grantDecision
  split
  · exact (onlyIn_grantEngine _ _ s).steady
  · split
    · exact steady_grantHost s
    · split
      · exact (onlyIn_grantReport _ s).steady
      · exact steady_grantPlace4 s

theorem steady_attemptRun (n : Nat) (s : State) : Steady s (attemptRun n s) := by
  have only := onlyIn_attemptRun n s
  have keeps := runKeeps_attemptRun n s
  obtain ⟨sets, ftg⟩ := attemptRun_ftg n s
  exact ⟨only.profile, by rw [ftg], by rw [ftg], keeps.beat.1, by rw [keeps.commit],
    by rw [only.window]; exact ⟨rfl, rfl, rfl⟩⟩

theorem steady_commitScene (v : Eval) (visible : Nat) (a : Attempt) (l : List Assignment) (s : State) :
    Steady s (commitScene v visible a l s) := by
  refine (onlyIn_commitScene v visible a l s).steady_of_commit ?_
  rw [commitScene_eq, (onlyIn_leaveQueue _ _).commit, scenePlaced_commit]

theorem steady_decideScene (v : Eval) (a : Attempt) (l : List Assignment) (s : State) :
    Steady s (decideScene v a l s) := by
  unfold decideScene
  dsimp only
  split
  · exact (onlyIn_refusePlate _ _ _ s).steady.trans (steady_attemptRun _ _)
  · split
    · split
      · exact (steady_commitScene _ _ _ _ s).trans (steady_attemptRun _ _)
      · exact .refl s
    · split
      · exact (onlyIn_chargeSlack _ s).steady
      · exact (onlyIn_skipNotReady v s).steady.trans (steady_attemptRun _ _)

theorem steady_endAttempt (s : State) : Steady s (endAttempt s) := (onlyIn_endAttempt s).steady_of_commit rfl

theorem steady_commitDecision (s : State) : Steady s (commitDecision s) := by
  unfold commitDecision
  split
  · exact .refl s
  · split
    · dsimp only
      split
      · exact steady_endAttempt s
      · split
        · split
          · exact (steady_endAttempt s).trans (steady_decideScene _ _ _ _)
          · exact steady_endAttempt s
        · exact steady_endAttempt s
        · exact steady_endAttempt s
        · exact steady_endAttempt s
    · exact .refl s

theorem steady_linkAhead (event : LinkEvent) (k : Nat) (s : State) : Steady s (linkAhead event k s) := by
  have acts (u : State) : Steady u (stepLink k u) := (onlyIn_setTile k _ u).steady.trans (steady_raiseIf _ .tile _)
  unfold linkAhead
  split
  · exact (acts s).trans (onlyIn_updTile k _ _).steady
  · exact .refl s

theorem steady_takeDescriptor (k : Nat) (d : PanelDescriptor) (s : State) : Steady s (takeDescriptor k d s) := by
  unfold takeDescriptor
  split
  · split
    · exact (onlyIn_updTile k _ s).steady
    · exact (onlyIn_updTile k _ s).steady.trans (steady_raise .tile _)
  · exact .refl s

theorem steady_linkTakesPixel (k : Nat) (s : State) : Steady s (linkTakesPixel k s) := by
  unfold linkTakesPixel
  split
  · exact .refl s
  · split
    · split
      · exact .refl s
      · exact (onlyIn_setTile k _ s).steady.trans (steady_raiseIf _ .underrun _)
    · split
      · exact .refl s
      · exact (onlyIn_updTile k _ s).steady

theorem steady_receiveHandoff (s : State) : Steady s (receiveHandoff s) :=
  (onlyIn_receiveHandoff s).steady_of_commit (frameKeeps_receiveHandoff s).stopFrame

theorem steady_outcomeLanded (s : State) : Steady s (outcomeLanded s) := by
  unfold outcomeLanded
  split
  · refine ((onlyIn_popReport s).steady.trans ?_).trans (onlyIn_followerOnLanded _).steady
    unfold countFinal
    split
    · exact (onlyIn_setReport _ _).steady.trans (steady_raise .final _)
    · exact .refl _
  all_goals exact .refl s

theorem steady_faultLanded (s : State) : Steady s (faultLanded s) := by
  unfold faultLanded
  split
  · exact ((onlyIn_popReport s).steady.trans (steady_raise .fault _)).trans (steady_raiseIf _ .hold _)
  all_goals exact .refl s

theorem steady_refreshLanded (s : State) : Steady s (refreshLanded s) := by
  unfold refreshLanded
  split
  · split
    · exact ((onlyIn_popReport s).steady.trans (steady_raiseIf _ .mark _)).trans (steady_raiseIf _ .store _)
    · exact .refl s
  all_goals exact .refl s

theorem steady_setFilter (i : EventInput) (x : Filter) (s : State) : Steady s (setFilter i x s) := by
  cases i <;> exact ⟨rfl, rfl, rfl, rfl, rfl, rfl, rfl, rfl⟩

theorem steady_acceptEvent (i : EventInput) (s : State) : Steady s (acceptEvent i s) := by
  cases i with
  | trigger =>
    show Steady s (triggerEvent s)
    refine (onlyIn_triggerEvent s).steady_of_commit ?_
    unfold triggerEvent
    split
    · rfl
    · split
      · exact congrArg CommitUnit.stopFrame (onlyIn_resolveWait _ s).commit
      · split
        · split <;> rfl
        · rfl
  | pulse =>
    have pending (u : State) : Steady u (pendAlignment u) := by
      unfold pendAlignment
      split
      · exact ⟨rfl, rfl, rfl, rfl, rfl, rfl, rfl, rfl⟩
      · exact .refl u
    exact (onlyIn_pulseEvent s).steady.trans (pending _)

theorem steady_inputActive (i : EventInput) (s : State) : Steady s (inputActive i s) := by
  unfold inputActive
  split
  · exact .refl s
  · dsimp only
    split
    · unfold qualify
      split
      · exact ((onlyIn_setPins s _).steady.trans (steady_setFilter _ _ _)).trans (steady_acceptEvent _ _)
      · exact (onlyIn_setPins s _).steady.trans (steady_setFilter _ _ _)
    · exact (onlyIn_setPins s _).steady

theorem steady_inputInactive (i : EventInput) (s : State) : Steady s (inputInactive i s) := by
  unfold inputInactive
  dsimp only
  split
  · exact (onlyIn_setPins s _).steady.trans (steady_setFilter _ _ _)
  · exact (onlyIn_setPins s _).steady

theorem steady_widthReached (i : EventInput) (s : State) : Steady s (widthReached i s) := by
  unfold widthReached
  split
  · split
    · exact (steady_setFilter _ _ _).trans (steady_acceptEvent _ _)
    · exact .refl s
  · exact .refl s
  · exact .refl s

/-! ## The commands that leave the control alone -/

theorem steady_takeRedirect (s : State) : Steady s (takeRedirect s) := by
  have withdrawn (u : State) : Steady u (withdrawAll (endAttempt (endFollowing u))) :=
    ((onlyIn_endFollowing u).steady.trans (steady_endAttempt _)).trans (onlyIn_withdrawAll _).steady
  exact ((steady_record (by decide) (by decide) s).trans (withdrawn _)).trans
    ((onlyIn_setAnchor _).steady.trans (onlyIn_followFrom _ _).steady)

theorem steady_takeResume (s : State) : Steady s (takeResume s) :=
  (steady_record (by decide) (by decide) s).trans (onlyIn_resumeFollowing _).steady

theorem steady_takeInvalidate (s : State) : Steady s (takeInvalidate s) :=
  (steady_record (by decide) (by decide) s).trans (steady_placeJob _ _ _)

theorem Window.signal_sameControl (before after : Window) (h : before.SameControl after) :
    before.SameControl (before.signal after) := by
  unfold Window.signal
  split
  · exact h
  · exact h

/-- The commands that change the wall state, the profile, the beat, or the ADOPT_PROFILE at work. -/
def setsControl : Instr → Bool
  | .deviceReset _ | .loadingEnd _ | .adoptProfile _ | .profileRecordReadDone | .start | .stop | .wallReset
  | .frameStart | .waitLimitSkip _ => true
  | _ => false

theorem steady_exec {c : Instr} {s t : State} (other : setsControl c = false) (ran : exec c s = .next t) :
    Steady s t := by
  have ends {u : State} (same : exec c s = .next u) (h : Steady s u) : Steady s t :=
    Host.Outcome.next.inj (same.symm.trans ran) ▸ h
  have told {u : State} (same : exec c s = .next (dryEdge s u)) (h : Steady s u) : Steady s t :=
    ends same (h.trans (steady_dryEdge s u))
  cases c with
  | deviceReset cut | loadingEnd unread | adoptProfile persist | profileRecordReadDone | start | stop | wallReset
  | frameStart | waitLimitSkip record => cases other
  | profileRecordReadIssue => exact ends rfl (steady_profileReadIssue s)
  | redirect => exact ends rfl (steady_command fun _ => steady_takeRedirect s)
  | resume => exact told rfl (steady_command fun _ => steady_takeResume s)
  | invalidateStore => exact ends rfl (steady_command fun _ => steady_takeInvalidate s)
  | cmdInvalidCode code =>
    have run : execCmdInvalidCode code s = .next t := ran
    unfold execCmdInvalidCode at run
    split_ifs at run
    cases run
    exact steady_record (by simp) (by simp) s
  | attnWrite value => exact ends rfl (steady_setWindow (Window.signal_sameControl _ _ ⟨rfl, rfl, rfl⟩))
  | attnMaskWrite value => exact ends rfl (steady_setWindow (Window.signal_sameControl _ _ ⟨rfl, rfl, rfl⟩))
  | registerWrite target value => exact ends rfl (steady_setWindow ⟨rfl, rfl, rfl⟩)
  | messageSignallingChange enabled => exact ends rfl (steady_setWindow ⟨rfl, rfl, rfl⟩)
  | frameLoRead => exact ends rfl ⟨rfl, rfl, rfl, rfl, rfl, rfl, rfl, rfl⟩
  | grantDecision => exact ends rfl (steady_grantDecision s)
  | commitDecision => exact told rfl (steady_commitDecision s)
  | graceExpired k | joinComplete k | lostTimeout k | absentIdentify k | trainingTimeout k =>
    exact ends rfl (steady_linkAhead _ k s)
  | descriptor k d => exact ends rfl (steady_takeDescriptor k d s)
  | linkTakesPixel k => exact ends rfl (steady_linkTakesPixel k s)
  | recordWordsArrived => exact told rfl (onlyIn_recordArrived s).steady
  | departingWriteReceived => exact told rfl (onlyIn_receiveDeparting s).steady
  | handoffWriteReceived => exact ends rfl (steady_receiveHandoff s)
  | outcomeWriteLanded => exact ends rfl (steady_outcomeLanded s)
  | faultRecordLanded => exact ends rfl (steady_faultLanded s)
  | refreshLanded => exact ends rfl (steady_refreshLanded s)
  | eventInputActive i => exact ends rfl (steady_inputActive i s)
  | eventInputInactive i => exact ends rfl (steady_inputInactive i s)
  | filterWidthReached i => exact ends rfl (steady_widthReached i s)
  | sensorReading x y =>
    refine ends rfl ?_
    split
    · exact steady_takeReading _ s
    · exact .refl s
  | sensorReadFailure =>
    refine ends rfl ?_
    split
    · exact steady_failReading s
    · exact .refl s
  | byteWriteDone => exact ends rfl (steady_byteWritten s)
  | byteWriteFailed => exact ends rfl (steady_byteFailed s)
  | hostWindowAccess access => exact (onlyIn_hostWindowAccess ran).steady
  | linkReadReturn => exact (onlyIn_exec ran).steady
  | echo k tag => exact ends rfl (onlyIn_takeEcho k tag s).steady
  | burstArrival k words => exact ends rfl (onlyIn_burstArrives k words s).steady
  | fetchBegin => exact (onlyIn_exec ran).steady
  | holdFaultReceived => exact (onlyIn_exec ran).steady
  | ambientPoll => exact (onlyIn_exec ran).steady

/-! ## The commands that change it -/

/-- What `ProfileAndBeatLockedUntilReset` says of one step. -/
def Locked (c : Instr) (p : Profile) (s t : State) : Prop :=
  t.profile = some p ∧ t.ftg.running = true ∧
  (c = .frameStart → t.now = (if s.ftg.begun then s.now else s.now + 1) ∧ t.ftg.begun = false) ∧
  (∀ record, c = .waitLimitSkip record →
    (t.now = s.now ∧ t.ftg.begun = s.ftg.begun) ∨ (s.ftg.begun = false ∧ t.now = s.now + 1 ∧ t.ftg.begun = true)) ∧
  (c ≠ .frameStart → (∀ record, c ≠ .waitLimitSkip record) → t.now = s.now ∧ t.ftg.begun = s.ftg.begun)

/-- What a step makes of the control of a part that meets the control invariant. -/
structure Controlled (c : Instr) (s t : State) : Prop where
  inv : ControlInv t
  wall : WallStep c s.window.wall t.window.wall
  locked : (∀ cut, c ≠ .deviceReset cut) → ∀ p, s.profile = some p → Locked c p s t

/-- The beat and the profile of a step that is not a frame start and leaves both alone. -/
theorem Locked.of_same {c : Instr} {p : Profile} {s t : State} (inv : ControlInv s) (adopted : s.profile = some p)
    (profile : t.profile = s.profile) (running : t.ftg.running = s.ftg.running) (now : t.now = s.now)
    (begun : t.ftg.begun = s.ftg.begun) (other : c ≠ .frameStart) : Locked c p s t := by
  refine ⟨profile.trans adopted, ?_, fun same => absurd same other, fun _ _ => .inl ⟨now, begun⟩, fun _ _ => ⟨now, begun⟩⟩
  rw [running, inv.beat, adopted]
  rfl

theorem Steady.controlled {c : Instr} {s t : State} (h : Steady s t) (inv : ControlInv s) (other : c ≠ .frameStart) :
    Controlled c s t :=
  ⟨h.controlInv inv, .inl h.window.1, fun _ _ adopted =>
    .of_same inv adopted h.profile h.running h.now h.begun other⟩

/-- A wall state in which a profile is adopted. -/
def WallState.Shows (x : WallState) : Prop := x = .standby ∨ x = .showing ∨ x = .stopping

/-- The part enters one of the wall states with a profile from another. -/
theorem ControlInv.enter {s t : State} (inv : ControlInv s) (before : s.window.wall.Shows)
    (after : t.window.wall.Shows) (profile : t.profile = s.profile) (running : t.ftg.running = s.ftg.running)
    (adoption : t.window.adoption = s.window.adoption)
    (stopping : t.commit.stopFrame.isSome = true ↔ t.window.wall = .stopping)
    (busy : t.window.stopBusy = true ↔ t.window.wall = .stopping) : ControlInv t := by
  have adopted : t.profile.isSome = true := by
    rw [profile]
    exact inv.adopted.2 before
  refine ⟨by rw [running, profile, inv.beat], ⟨fun _ => after, fun _ => adopted⟩, fun work => ?_, stopping, busy⟩
  rw [adoption] at work
  have waits := inv.adopting work
  rcases before with wall | wall | wall <;> rw [wall] at waits <;> cases waits

theorem not_stopping_of_ne {w : WallState} {b : Bool} (h : b = true ↔ w = .stopping) (other : w ≠ .stopping) :
    b = false := Bool.eq_false_iff.2 fun on => other (h.1 on)

/-! ### The beginning of frame 0 -/

theorem steady_beginPolling (s : State) : Steady s (beginPolling s) := by
  unfold beginPolling
  dsimp only
  split
  · exact (onlyIn_setAmbient s _).steady.trans (steady_changeAmbient _)
  · exact (onlyIn_setAmbient s _).steady
  · exact (onlyIn_setAmbient s _).steady

/-- A profile adopted while none is: STANDBY, the beat running. -/
theorem adopt_control (p : Profile) {s : State} (adoption : s.window.adoption = none)
    (stopFrame : s.commit.stopFrame = none) (idle : s.window.stopBusy = false) :
    ControlInv (adopt p s) ∧ (adopt p s).window.wall = .standby := by
  have begun (u : State) : Steady (u.setFtg { u.ftg with
      running := true, frame := 0, begun := false, trigger := initialFilter u.pins.trigger,
      pulse := initialFilter u.pins.pulse }) (beginRunning u) :=
    (((onlyIn_forTiles _ beginLink onlyIn_beginLink _).steady.trans (steady_beginPolling _)).trans
      (onlyIn_takeRefresh _).steady).trans (onlyIn_prepareEngines _).steady
  have run := begun ((s.setProfile (some p)).setWindow { s.window with wall := .standby })
  refine ⟨run.controlInv ?_, run.window.1⟩
  constructor
  · rfl
  · exact ⟨fun _ => .inl rfl, fun _ => rfl⟩
  · show s.window.adoption.isSome = true → _
    rw [adoption]
    exact fun h => nomatch h
  · show s.commit.stopFrame.isSome = true ↔ _
    rw [stopFrame]
    exact iff_of_false Bool.false_ne_true (fun h => nomatch h)
  · show s.window.stopBusy = true ↔ _
    rw [idle]
    exact iff_of_false Bool.false_ne_true (fun h => nomatch h)

section
variable {s : State} (inv : ControlInv s)
include inv

theorem ControlInv.unadopted (wall : ¬ s.window.wall.Shows) :
    s.profile = none ∧ s.commit.stopFrame = none ∧ s.window.stopBusy = false := by
  have other : s.window.wall ≠ .stopping := fun same => wall (.inr (.inr same))
  refine ⟨?_, ?_, not_stopping_of_ne inv.stopBusy other⟩
  · rw [← Option.not_isSome_iff_eq_none, inv.adopted]
    exact wall
  · rw [← Option.not_isSome_iff_eq_none, inv.stopping]
    exact other

theorem ControlInv.no_work (wall : s.window.wall ≠ .awaitProfile) : s.window.adoption = none := by
  rw [← Option.not_isSome_iff_eq_none]
  exact fun work => wall (inv.adopting work)

end

/-- The registers and the beat after a WALL_RESET taken. -/
theorem takeWallReset_control (s : State) :
    (takeWallReset s).window =
      { s.window.record Command.wallReset.code .accepted with wall := .standby, resetTaken := true } ∧
    (takeWallReset s).ftg = { s.ftg with clockSets := [] } ∧ (takeWallReset s).commit.stopFrame = none := by
  unfold takeWallReset
  dsimp only
  refine ⟨(onlyIn_requestLevel _ _).window, (onlyIn_requestLevel _ _).ftg, ?_⟩
  exact (levelOnly_requestLevel _ _).stopFrame

/-- A step from a state without a profile locks nothing. -/
theorem Controlled.of_unadopted {c : Instr} {s t : State} (profile : s.profile = none) (ok : ControlInv t)
    (wall : WallStep c s.window.wall t.window.wall) : Controlled c s t := by
  refine ⟨ok, wall, fun _ p adopted => ?_⟩
  rw [profile] at adopted
  cases adopted

/-- With no profile, no stop frame and no busy STOP, the part meets the invariant in LOADING and AWAIT_PROFILE. -/
theorem controlInv_waiting {t : State} (profile : t.profile = none) (running : t.ftg.running = false)
    (stopFrame : t.commit.stopFrame = none) (idle : t.window.stopBusy = false)
    (wall : ¬ t.window.wall.Shows) (work : t.window.adoption.isSome = true → t.window.wall = .awaitProfile) :
    ControlInv t := by
  have other : t.window.wall ≠ .stopping := fun same => wall (.inr (.inr same))
  refine ⟨by rw [running, profile]; rfl, ?_, work, ?_, ?_⟩
  · rw [profile]
    exact iff_of_false Bool.false_ne_true wall
  · rw [stopFrame]
    exact iff_of_false Bool.false_ne_true other
  · rw [idle]
    exact iff_of_false Bool.false_ne_true other

theorem not_shows_loading : ¬ WallState.Shows .loading := by simp [WallState.Shows]

theorem not_shows_awaitProfile : ¬ WallState.Shows .awaitProfile := by simp [WallState.Shows]

section
variable {s : State} (inv : ControlInv s)
include inv

theorem controlled_loadingEnd (unread : List Nat) : Controlled (.loadingEnd unread) s (loadingEnd unread s) := by
  by_cases loads : s.window.wall = .loading ∧ s.store.state = .loading
  · obtain ⟨profile, stopFrame, idle⟩ := inv.unadopted (by rw [loads.1]; exact not_shows_loading)
    have noWork := inv.no_work (by rw [loads.1]; decide)
    have running : s.ftg.running = false := by rw [inv.beat, profile]; rfl
    have entered (x : WallState) (step : x = .standby ∨ x = .awaitProfile) :
        WallStep (.loadingEnd unread) s.window.wall x := .inr (.inl ⟨loads.1, ⟨unread, rfl⟩, step⟩)
    unfold loadingEnd
    rw [if_pos loads]
    dsimp only
    split
    · next p valid =>
      generalize hu : loadTrims _ _ = u
      obtain ⟨ok, wall⟩ := adopt_control p (s := u) (by rw [← hu]; exact noWork) (by rw [← hu]; exact stopFrame)
        (by rw [← hu]; exact idle)
      exact .of_unadopted profile ok (entered _ (.inl wall))
    · refine .of_unadopted profile ?_ (entered _ (.inr rfl))
      exact controlInv_waiting profile running stopFrame idle not_shows_awaitProfile (fun _ => rfl)
  · have same : loadingEnd unread s = s := if_neg loads
    rw [same]
    exact (Steady.refl s).controlled inv (by simp)

theorem controlled_profileReadDone : Controlled .profileRecordReadDone s (profileReadDone s) := by
  have same : Controlled .profileRecordReadDone s s := (Steady.refl s).controlled inv (by simp)
  unfold profileReadDone
  split
  · next a work =>
    split
    · have waits : s.window.wall = .awaitProfile := inv.adopting (by rw [work]; rfl)
      obtain ⟨profile, stopFrame, idle⟩ := inv.unadopted (by rw [waits]; exact not_shows_awaitProfile)
      have running : s.ftg.running = false := by rw [inv.beat, profile]; rfl
      have done := Window.finish_sameControl (c := .adoptProfile) (by decide) .refusedInvalid
        { s.window with adoption := none }
      dsimp only
      split
      · next p valid =>
        obtain ⟨ok, wall⟩ := adopt_control p (s := s.setWindow { s.window with adoption := none }) rfl stopFrame idle
        have record : Steady (adopt p (s.setWindow { s.window with adoption := none }))
            (adoptRecord p a.persist (s.setWindow { s.window with adoption := none })) := by
          unfold adoptRecord
          dsimp only
          split
          · exact steady_placeJob _ _ _
          · exact steady_setWindow (Window.finish_sameControl (by decide) _ _)
        refine .of_unadopted profile (record.controlInv ok) (.inr (.inr (.inl ⟨waits, rfl, ?_⟩)))
        exact record.window.1.trans wall
      · refine .of_unadopted profile ?_ (.inl done.1)
        have wall := done.1.trans waits
        exact controlInv_waiting profile running stopFrame (done.2.2.trans idle)
          (fun shows => not_shows_awaitProfile (wall ▸ shows)) (fun _ => wall)
    · exact same
    · exact same
  · exact same

/-- A command refused changes nothing of the control; one taken is left to show. -/
theorem controlled_command {i : Instr} {c : Command} {take : State → State} (other : i ≠ .frameStart)
    (h : judge c s = none → Controlled i s (take s)) : Controlled i s (command c take s) := by
  cases judged : judge c s with
  | none =>
    rw [command_taken take judged]
    exact h judged
  | some r =>
    rw [command_refused take judged]
    exact (steady_record (fun same => judge_ne_busy judged same.2) (fun same => judge_ne_accepted judged same.2)
      s).controlled inv other

theorem controlled_adoptProfile (persist : Bool) :
    Controlled (.adoptProfile persist) s (command .adoptProfile (takeAdopt persist) s) := by
  refine controlled_command inv (by simp) fun taken => ?_
  have waits : s.window.wall = .awaitProfile := by simpa [commandAllowed] using allowed_of_taken taken
  obtain ⟨profile, stopFrame, idle⟩ := inv.unadopted (by rw [waits]; exact not_shows_awaitProfile)
  have running : s.ftg.running = false := by rw [inv.beat, profile]; rfl
  have recorded := steady_record (code := Command.adoptProfile.code) (r := .busy) (by decide) (by decide) s
  unfold takeAdopt
  dsimp only
  split
  · exact (recorded.trans (steady_setWindow (Window.finish_sameControl (by decide) _ _))).controlled inv (by simp)
  · obtain ⟨wall, -, stopBusy⟩ := recorded.window
    refine .of_unadopted profile ?_ (.inl wall)
    have wall' := wall.trans waits
    exact controlInv_waiting profile running stopFrame (stopBusy.trans idle)
      (fun shows => not_shows_awaitProfile (wall' ▸ shows)) (fun _ => wall')

theorem controlled_start : Controlled .start s (command .start takeStart s) := by
  refine controlled_command inv (by simp) fun taken => ?_
  have wall : s.window.wall = .standby := by simpa [commandAllowed] using allowed_of_taken taken
  have only := onlyIn_takeStart s
  have window : (takeStart s).window = { s.window.record Command.start.code .accepted with wall := .showing } :=
    (onlyIn_followFrom _ _).window
  have showing : (takeStart s).window.wall = .showing := by rw [window]
  have notStopping : s.window.wall ≠ .stopping := by rw [wall]; decide
  have ftg := only.ftg
  refine ⟨inv.enter (.inl wall) (.inr (.inl showing)) only.profile (by rw [ftg]) ?_ ?_ ?_,
    .inr (.inr (.inr (.inl ⟨wall, rfl, showing⟩))), fun _ p adopted =>
      .of_same inv adopted only.profile (by rw [ftg]) only.now (by rw [ftg]) (by simp)⟩
  · rw [window]
    exact Window.record_adoption _ _ _
  · rw [only.commit, showing, not_stopping_of_ne inv.stopping notStopping]
    decide
  · have : (takeStart s).window.stopBusy = s.window.stopBusy := by
      rw [window]
      exact Window.record_stopBusy (by decide) (by decide) s.window
    rw [this, showing, not_stopping_of_ne inv.stopBusy notStopping]
    decide

theorem controlled_stop : Controlled .stop s (command .stop takeStopCommand s) := by
  refine controlled_command inv (by simp) fun taken => ?_
  have wall : s.window.wall = .showing := by simpa [commandAllowed] using allowed_of_taken taken
  obtain ⟨t, vs, ran, commit, window, -, -, -, -, -, -, -, -, -, -, -, only⟩ :=
    stopTaken wall (idle_of_taken (by decide) taken)
  obtain rfl : takeStopCommand s = t := by
    rw [← command_taken takeStopCommand taken]
    exact Host.Outcome.next.inj ran
  have stopping : (takeStopCommand s).window.wall = .stopping := by rw [window]
  have ftg := only.ftg
  refine ⟨inv.enter (.inr (.inl wall)) (.inr (.inr stopping)) only.profile (by rw [ftg]) (by rw [window]) ?_ ?_,
    .inr (.inr (.inr (.inr (.inl ⟨wall, rfl, stopping⟩)))), fun _ p adopted =>
      .of_same inv adopted only.profile (by rw [ftg]) only.now (by rw [ftg]) (by simp)⟩
  · rw [commit, stopping]
    exact iff_of_true rfl rfl
  · rw [window]
    exact iff_of_true rfl rfl

theorem controlled_wallReset : Controlled .wallReset s (command .wallReset takeWallReset s) := by
  refine controlled_command inv (by simp) fun taken => ?_
  have wall : s.window.wall.Shows := by simpa [commandAllowed, WallState.Shows] using allowed_of_taken taken
  obtain ⟨window, ftg, stopFrame⟩ := takeWallReset_control s
  have only := onlyIn_takeWallReset s
  have standby : (takeWallReset s).window.wall = .standby := by rw [window]
  refine ⟨inv.enter wall (.inl standby) only.profile (by rw [ftg]) ?_ ?_ ?_, ?_, fun _ p adopted =>
      .of_same inv adopted only.profile (by rw [ftg]) ?_ (by rw [ftg]) (by simp)⟩
  · rw [window]
    exact Window.record_adoption _ _ _
  · rw [stopFrame, standby]
    exact iff_of_false Bool.false_ne_true (fun h => nomatch h)
  · have idle : (takeWallReset s).window.stopBusy = false := by
      rw [window]
      exact Window.record_reset_stopBusy s.window
    rw [idle, standby]
    exact iff_of_false Bool.false_ne_true (fun h => nomatch h)
  · rcases wall with standby' | shows
    · exact .inl (standby.trans standby'.symm)
    · exact .inr (.inr (.inr (.inr (.inr (.inr (.inl ⟨shows, rfl, standby⟩))))))
  · rw [State.now, ftg]
    rfl

/-! ### The frame start -/

end

/-- The control of the part over a whole frame start. -/
theorem frameStart_control {s t : State} (running : s.ftg.running = true) (fresh : s.ftg.begun = false)
    (ran : exec .frameStart s = .next t) :
    (s.commit.stopFrame ≠ some (s.now + 1) → s.window.SameControl t.window ∧
      t.commit.stopFrame = s.commit.stopFrame) ∧
    (s.commit.stopFrame = some (s.now + 1) → t.window.wall = .standby ∧ t.commit.stopFrame = none ∧
      t.window.adoption = s.window.adoption ∧ (s.window.stopBusy = true → t.window.stopBusy = false)) := by
  obtain ⟨_, same, done⟩ := frameStart_ends running fresh
  obtain rfl := Host.Outcome.next.inj (ran.symm.trans same)
  obtain ⟨wall, main, -, adoption, -⟩ := done.window
  have stopFrame := done.stopFrame
  have keeps := frameKeeps_frameReleased s
  have now := frameReleased_now s
  have window : (untilRefresh s).window = (completeStop (frameReleased s)).window :=
    (onlyIn_untilRefresh_frameStopped s).window
  have commit : (untilRefresh s).commit.stopFrame = (completeStop (frameReleased s)).commit.stopFrame := by
    have after := untilRefresh_commit s
    rw [frameStopped] at after
    generalize (untilRefresh s).commit = c at *
    generalize completeStop (frameReleased s) = d at *
    rw [after]
  clear done
  generalize untilRefresh s = r at *
  generalize frameReleased s = f at *
  refine ⟨fun later => ?_, fun stops => ?_⟩
  · rw [completeStop_of_not_due (by rw [keeps.stopFrame, now]; exact later)] at window commit
    refine ⟨.of_main ?_ ?_ ?_, stopFrame.trans (commit.trans keeps.stopFrame)⟩
    · rw [wall, window, keeps.wall]
    · rw [adoption, window, keeps.adoption]
    · rw [main, window, keeps.main]
  · rw [completeStop_of_due (by rw [keeps.stopFrame, stops, now])] at window commit
    have finished : r.window = { f.window with wall := .standby }.finish .stop .done := window
    refine ⟨?_, stopFrame.trans commit, ?_, fun busy => ?_⟩
    · rw [wall, finished]
      exact Window.finish_wall _ _ _
    · rw [adoption, finished, Window.finish_adoption]
      exact keeps.adoption
    · have before : s.window.main = some ⟨Command.stop.code, .busy⟩ := by simpa [Window.stopBusy] using busy
      have after : r.window.main = some ⟨Command.stop.code, .done⟩ := by
        rw [finished]
        exact Window.finish_main (keeps.main.trans before)
      rw [Window.stopBusy, main, after]
      rfl

theorem controlled_wholeFrame {c : Instr} {s t u : State} (inv : ControlInv s) (running : s.ftg.running = true)
    (fresh : s.ftg.begun = false) (ran : exec .frameStart s = .next t)
    (kind : c = .frameStart ∧ u = t ∨
      (∃ record, c = .waitLimitSkip record) ∧ u = t.setFtg { t.ftg with begun := true }) : Controlled c s u := by
  obtain ⟨goesOn, stops⟩ := frameStart_control running fresh ran
  obtain ⟨sets, ftg⟩ := frameStart_ftg running fresh ran
  obtain ⟨sets', rest⟩ := Ftg.advance_rest s.prof.rate s.ftg
  rw [rest] at ftg
  have only : OnlyIn [.ftg, .follower, .scheduler, .commit, .tiles, .store, .report, .window] s t := onlyIn_exec ran
  have profile := only.profile
  have now : t.now = s.now + 1 := congrArg Ftg.frame ftg
  have adopted : s.profile.isSome = true := by rw [← inv.beat, running]
  have shows := inv.adopted.1 adopted
  have started : c = .frameStart ∨ ∃ record, c = .waitLimitSkip record := kind.imp And.left And.left
  have same : u.window = t.window ∧ u.commit = t.commit ∧ u.profile = t.profile ∧ u.ftg.running = t.ftg.running ∧
      u.now = t.now := by
    rcases kind with ⟨-, rfl⟩ | ⟨-, rfl⟩ <;> exact ⟨rfl, rfl, rfl, rfl, rfl⟩
  obtain ⟨window, commit, profile', running', now'⟩ := same
  have beat : u.ftg.running = s.ftg.running := running'.trans ((congrArg Ftg.running ftg).trans rfl)
  have locked (p : Profile) (has : s.profile = some p) : Locked c p s u := by
    refine ⟨profile'.trans (profile.trans has), beat.trans running, ?_, ?_, fun other others => ?_⟩
    · rintro rfl
      rcases kind with ⟨-, rfl⟩ | ⟨⟨record, skip⟩, -⟩
      · rw [fresh, if_neg Bool.false_ne_true]
        exact ⟨now, (congrArg Ftg.begun ftg).trans fresh⟩
      · cases skip
    · rintro record rfl
      rcases kind with ⟨start, -⟩ | ⟨-, rfl⟩
      · cases start
      · exact .inr ⟨fresh, now, rfl⟩
    · rcases started with start | ⟨record, skip⟩
      · exact absurd start other
      · exact absurd skip (others record)
  by_cases due : s.commit.stopFrame = some (s.now + 1)
  · obtain ⟨wall, stopFrame, adoption, idle⟩ := stops due
    have wall' : s.window.wall = .stopping := inv.stopping.1 (by rw [due]; rfl)
    rw [← window] at wall adoption idle
    rw [← commit] at stopFrame
    refine ⟨inv.enter shows (.inl wall) (profile'.trans profile) beat adoption ?_ ?_,
      .inr (.inr (.inr (.inr (.inr (.inl ⟨wall', started, wall⟩))))), fun _ => locked⟩
    · rw [stopFrame, wall]
      exact iff_of_false Bool.false_ne_true (fun h => nomatch h)
    · rw [idle (inv.stopBusy.2 wall'), wall]
      exact iff_of_false Bool.false_ne_true (fun h => nomatch h)
  · obtain ⟨same, stopFrame⟩ := goesOn due
    rw [← window] at same
    rw [← commit] at stopFrame
    obtain ⟨wall, adoption, stopBusy⟩ := same
    refine ⟨⟨?_, ?_, ?_, ?_, ?_⟩, .inl wall, fun _ => locked⟩
    · rw [beat, profile', profile, inv.beat]
    · rw [profile', profile, wall, inv.adopted]
    · rw [adoption, wall]
      exact inv.adopting
    · rw [stopFrame, wall, inv.stopping]
    · rw [stopBusy, wall, inv.stopBusy]

theorem controlled_frameStart {s t : State} (inv : ControlInv s) (ran : exec .frameStart s = .next t) :
    Controlled .frameStart s t := by
  cases running : s.ftg.running with
  | false =>
    rw [exec_frameStart, frameStart_of_stopped running, dryEdge_self] at ran
    obtain rfl := Host.Outcome.next.inj ran
    have profile : s.profile = none := by
      rw [← Option.not_isSome_iff_eq_none, ← inv.beat, running]
      exact Bool.false_ne_true
    exact .of_unadopted profile inv (.inl rfl)
  | true =>
    cases begun : s.ftg.begun with
    | false => exact controlled_wholeFrame inv running begun ran (.inl ⟨rfl, rfl⟩)
    | true =>
      rw [exec_frameStart, frameStart_of_begun running begun] at ran
      obtain rfl := Host.Outcome.next.inj ran
      have told := steady_dryEdge s (s.setFtg { s.ftg with begun := false })
      have before : ControlInv (s.setFtg { s.ftg with begun := false }) :=
        ⟨inv.beat, inv.adopted, inv.adopting, inv.stopping, inv.stopBusy⟩
      refine ⟨told.controlInv before, .inl told.window.1, fun _ p adopted => ⟨told.profile.trans adopted,
        told.running.trans running, fun _ => ⟨?_, told.begun⟩, fun _ same => (nomatch same),
        fun other => absurd rfl other⟩⟩
      rw [begun, if_pos rfl]
      exact told.now

theorem controlled_waitLimitSkip {record : Nat} {s t : State} (inv : ControlInv s)
    (ran : exec (.waitLimitSkip record) s = .next t) : Controlled (.waitLimitSkip record) s t := by
  by_cases takes : s.ftg.running = true ∧ s.ftg.begun = false ∧ record ∈ (beginFrame s).expiredWaits (s.now + 1)
  · obtain ⟨running, fresh, expired⟩ := takes
    obtain ⟨u, frame, -⟩ := frameStart_ends running fresh
    rw [waitLimitSkip_taken running fresh expired frame] at ran
    obtain rfl := Host.Outcome.next.inj ran
    exact controlled_wholeFrame inv running fresh frame (.inr ⟨⟨record, rfl⟩, rfl⟩)
  · rw [waitLimitSkip_idle ?_] at ran
    · obtain rfl := Host.Outcome.next.inj ran
      exact (Steady.refl s).controlled inv (by simp)
    · simpa only [not_and_or, Bool.not_eq_true, Bool.not_eq_false] using takes

/-- Every command, from a state that meets the control invariant. -/
theorem controlled_exec {c : Instr} {s t : State} (inv : ControlInv s) (ran : exec c s = .next t) :
    Controlled c s t := by
  have ends {u : State} (same : exec c s = .next u) (h : Controlled c s u) : Controlled c s t :=
    Host.Outcome.next.inj (same.symm.trans ran) ▸ h
  cases sets : setsControl c with
  | false =>
    refine (steady_exec sets ran).controlled inv ?_
    rintro rfl
    cases sets
  | true =>
    cases c with
    | deviceReset cut =>
      refine ends rfl ⟨?_, .inr (.inr (.inr (.inr (.inr (.inr (.inr ⟨⟨cut, rfl⟩, rfl⟩)))))), fun noReset =>
        absurd rfl (noReset cut)⟩
      exact controlInv_waiting rfl rfl rfl rfl not_shows_loading (fun h => nomatch h)
    | loadingEnd unread => exact ends rfl (controlled_loadingEnd inv unread)
    | adoptProfile persist => exact ends rfl (controlled_adoptProfile inv persist)
    | profileRecordReadDone => exact ends rfl (controlled_profileReadDone inv)
    | start => exact ends rfl (controlled_start inv)
    | stop => exact ends rfl (controlled_stop inv)
    | wallReset => exact ends rfl (controlled_wallReset inv)
    | frameStart => exact controlled_frameStart inv ran
    | waitLimitSkip record => exact controlled_waitLimitSkip inv ran
    | _ => cases sets

/-- Settles O5: of every command, from `controlled_exec`. -/
theorem controlInvariantKept : Obligations.ControlInvariantKept := by
  intro s t inv ran
  refine step_keeps (fun inv ran => (controlled_exec inv ran).inv) (fun inv => ?_) inv ran
  exact ⟨inv.beat, inv.adopted, inv.adopting, inv.stopping, inv.stopBusy⟩

/-- Settles O9: of every command, from `controlled_exec`. -/
theorem wallStateTransitions : Obligations.WallStateTransitions :=
  fun _ _ _ inv ran => (controlled_exec inv ran).wall

/-- Settles O10: of every command, from `controlled_exec`. -/
theorem profileAndBeatLockedUntilReset : Obligations.ProfileAndBeatLockedUntilReset :=
  fun _ _ _ p inv adopted noReset ran => (controlled_exec inv ran).locked noReset p adopted

end Sys2Proof.Machine
end

section
/-! The look-ahead queue's bounds and the write queue's places (R35, R52, R54, R79). -/

set_option Elab.async false

namespace Sys2Proof.Machine

/-! ## What keeps the two queues in bounds -/

/-- A step that keeps the bounds of the look-ahead queue and the places of the write queue. -/
structure QueuesKept (s t : State) : Prop where
  lookAhead : LookAheadInv s → LookAheadInv t
  places : WriteQueueInv s → WriteQueueInv t

theorem QueuesKept.refl (s : State) : QueuesKept s s := ⟨id, id⟩

theorem QueuesKept.trans {s t u : State} (h : QueuesKept s t) (g : QueuesKept t u) : QueuesKept s u :=
  ⟨fun inv => g.lookAhead (h.lookAhead inv), fun inv => g.places (h.places inv)⟩

theorem queuesKept_foldl {α : Type} {f : State → α → State} (h : ∀ s x, QueuesKept s (f s x)) (l : List α) (s : State) :
    QueuesKept s (l.foldl f s) := by
  induction l generalizing s with
  | nil => exact .refl s
  | cons x rest ih => exact (h s x).trans (ih _)

/-- A fetch and an attempt reserve two places each. -/
theorem State.reservedPlaces_eq (s : State) : s.reservedPlaces =
    (if s.fetchingRecord.isSome then 2 else 0) + (if s.commit.attempt.isSome then 2 else 0) := by
  unfold State.reservedPlaces State.fetchingRecord
  congr 1
  cases s.follower.fetch with
  | none => rfl
  | some f => cases f <;> rfl

theorem weight_mono {p q : Prop} [Decidable p] [Decidable q] (h : p → q) (n : Nat) :
    (if p then n else 0) ≤ (if q then n else 0) := by
  by_cases hp : p
  · rw [if_pos hp, if_pos (h hp)]
  · rw [if_neg hp]
    exact Nat.zero_le _

/-- Records may leave the queue, the fetch may end, writes may leave and the attempt may end. -/
theorem queuesKept_of_shrink {s t : State}
    (records : (t.scheduler.queue.map (·.cue.record)).Sublist (s.scheduler.queue.map (·.cue.record)))
    (fetch : t.fetchingRecord = s.fetchingRecord ∨ t.fetchingRecord = none)
    (writes : t.report.queue.length ≤ s.report.queue.length)
    (attempt : t.commit.attempt.isSome = true → s.commit.attempt.isSome = true) : QueuesKept s t := by
  have some (a : Nat) (h : t.fetchingRecord = some a) : s.fetchingRecord = some a :=
    fetch.elim (fun same => same.symm.trans h) (fun none => by rw [none] at h; cases h)
  have fetching : t.fetchingRecord.isSome = true → s.fetchingRecord.isSome = true := by
    intro h
    obtain ⟨a, ha⟩ := Option.isSome_iff_exists.1 h
    rw [some a ha]
    rfl
  constructor
  · rintro ⟨room, distinct, fresh⟩
    refine ⟨?_, distinct.sublist records, fun a h there => fresh a (some a h) (records.subset there)⟩
    have shorter := records.length_le
    rw [List.length_map, List.length_map] at shorter
    have lighter := weight_mono fetching 1
    omega
  · intro inv
    unfold WriteQueueInv at inv ⊢
    rw [State.reservedPlaces_eq] at inv ⊢
    have lighter := weight_mono fetching 2
    have lighter' := weight_mono attempt 2
    omega

section
variable {ps : List Part} {s t : State}

theorem OnlyIn.queuesKept (h : OnlyIn ps s t) (hs : Part.scheduler ∉ ps := by decide)
    (hf : Part.follower ∉ ps := by decide) (hr : Part.report ∉ ps := by decide) (hc : Part.commit ∉ ps := by decide) :
    QueuesKept s t := by
  have follower := h.follower hf
  refine queuesKept_of_shrink (by rw [h.scheduler hs]) (.inl ?_) (by rw [h.report hr]) (by rw [h.commit hc]; exact id)
  rw [State.fetchingRecord, follower]
  rfl

theorem OnlyIn.queuesKept_of_report (h : OnlyIn ps s t) (writes : t.report.queue.length ≤ s.report.queue.length)
    (hs : Part.scheduler ∉ ps := by decide) (hf : Part.follower ∉ ps := by decide) (hc : Part.commit ∉ ps := by decide) :
    QueuesKept s t := by
  have follower := h.follower hf
  refine queuesKept_of_shrink (by rw [h.scheduler hs]) (.inl ?_) writes (by rw [h.commit hc]; exact id)
  rw [State.fetchingRecord, follower]
  rfl

theorem OnlyIn.queuesKept_of_commit (h : OnlyIn ps s t)
    (attempt : t.commit.attempt.isSome = true → s.commit.attempt.isSome = true)
    (hs : Part.scheduler ∉ ps := by decide) (hf : Part.follower ∉ ps := by decide) (hr : Part.report ∉ ps := by decide) :
    QueuesKept s t := by
  have follower := h.follower hf
  refine queuesKept_of_shrink (by rw [h.scheduler hs]) (.inl ?_) (by rw [h.report hr]) attempt
  rw [State.fetchingRecord, follower]
  rfl

theorem OnlyIn.queuesKept_of_fetch (h : OnlyIn ps s t)
    (fetch : t.fetchingRecord = s.fetchingRecord ∨ t.fetchingRecord = none)
    (hs : Part.scheduler ∉ ps := by decide) (hr : Part.report ∉ ps := by decide) (hc : Part.commit ∉ ps := by decide) :
    QueuesKept s t :=
  queuesKept_of_shrink (by rw [h.scheduler hs]) fetch (by rw [h.report hr]) (by rw [h.commit hc]; exact id)

end

theorem fetchingRecord_of_fetch {s t : State} (h : t.follower.fetch = s.follower.fetch) :
    t.fetchingRecord = s.fetchingRecord := by rw [State.fetchingRecord, h, State.fetchingRecord]

theorem fetchingRecord_of_none {t : State} (h : t.follower.fetch = none) : t.fetchingRecord = none := by
  rw [State.fetchingRecord, h]

theorem Follower.Told.fetch {f f' : Follower} (h : f.Told f') : f'.fetch = f.fetch := by rw [h.1]

theorem queuesKept_of_runs {stay : Entry → Prop} {s t : State} (runs : QueueRuns stay s t)
    (told : s.follower.Told t.follower) (writes : t.report.queue.length ≤ s.report.queue.length)
    (attempt : t.commit.attempt.isSome = true → s.commit.attempt.isSome = true) : QueuesKept s t :=
  queuesKept_of_shrink runs.records (.inl (fetchingRecord_of_fetch told.fetch)) writes attempt

/-! ## Writes that join the write queue -/

/-- The write queue with its reserved places has n places to spare. -/
def Spare (n : Nat) (s : State) : Prop := s.report.queue.length + s.reservedPlaces + n ≤ Config.writeQueueDepth

theorem spare_enqueue {n : Nat} {s : State} (h : Spare (n + 1) s) (x : QueueItem) : Spare n (enqueue x s) := by
  have reserved : (enqueue x s).reservedPlaces = s.reservedPlaces := rfl
  have length : (enqueue x s).report.queue.length = s.report.queue.length + 1 := List.length_append
  unfold Spare at h ⊢
  omega

theorem Spare.places {n : Nat} {s : State} (h : Spare n s) : WriteQueueInv s := by
  unfold Spare at h
  unfold WriteQueueInv
  omega

/-- Free places are places to spare. -/
theorem spare_of_free {n : Nat} {s : State} (free : n ≤ s.freePlaces) (inv : WriteQueueInv s) : Spare n s := by
  unfold State.freePlaces at free
  unfold WriteQueueInv at inv
  unfold Spare
  omega

theorem queuesKept_enqueue {s : State} (free : 0 < s.freePlaces) (x : QueueItem) : QueuesKept s (enqueue x s) := by
  refine ⟨fun inv => ⟨inv.room, inv.distinct, inv.fresh⟩, fun inv => ?_⟩
  exact (spare_enqueue (n := 0) (spare_of_free free inv) x).places

theorem free_of_openPlaces {n : Nat} {s : State} (h : n ≤ s.openPlaces) : n ≤ s.freePlaces := by
  unfold State.openPlaces State.placesForHandoff State.placesForHold at h
  split_ifs at h <;> omega

theorem free_of_placesForHandoff {s : State} (h : 0 < s.placesForHandoff) : 0 < s.freePlaces :=
  ((s.placesForHold_pos).1 ((s.placesForHandoff_pos).1 h).2).2

theorem queuesKept_handOn (record : Nat) (kind : OutcomeKind) (s : State) : QueuesKept s (handOn record kind s) := by
  unfold handOn
  split
  · next room => exact queuesKept_enqueue (free_of_openPlaces room) _
  · exact (onlyIn_setCommit s _).queuesKept_of_commit id

theorem queuesKept_reportHold (f : FaultRecord) (s : State) : QueuesKept s (reportHold f s) := by
  unfold reportHold
  split
  · next room => exact queuesKept_enqueue (free_of_placesForHandoff room) _
  · exact (onlyIn_setReport s _).queuesKept_of_report le_rfl

theorem queuesKept_receiveHoldFault (s : State) : QueuesKept s (receiveHoldFault s) := by
  unfold receiveHoldFault
  split
  · exact .refl s
  · split
    · next room =>
      refine ((onlyIn_setReport s _).queuesKept_of_report ?_).trans
        (queuesKept_enqueue (s := s.setReport { s.report with holdFaults := _ }) ?_ _)
      · exact le_rfl
      · exact ((s.placesForHold_pos).1 room).2
    · exact .refl s

theorem queuesKept_receiveHandoff (s : State) : QueuesKept s (receiveHandoff s) := by
  unfold receiveHandoff
  split
  · exact .refl s
  · split
    · next room =>
      refine ((onlyIn_setCommit s _).queuesKept_of_commit ?_).trans
        (queuesKept_enqueue (s := s.setCommit { s.commit with handoff := _ }) ?_ _)
      · exact id
      · exact free_of_placesForHandoff room
    · exact .refl s

theorem queuesKept_leaveQueue (record : Nat) (s : State) : QueuesKept s (leaveQueue record s) := by
  have only := onlyIn_leaveQueue record s
  exact queuesKept_of_runs (queueRuns_leaveQueue (stay := fun _ => False) fun _ _ _ _ h => h) (leaveQueue_told record s)
    (by rw [only.report]) (by rw [only.commit]; exact id)

theorem queuesKept_receiveDeparting (s : State) : QueuesKept s (receiveDeparting s) := by
  rcases receiveDeparting_cases s with same | ⟨record, d, -, free, received⟩
  · rw [same]
    exact .refl s
  · rw [received]
    exact (queuesKept_enqueue free _).trans (queuesKept_leaveQueue _ _)

theorem queuesKept_drainDeparting (n : Nat) (s : State) : QueuesKept s (drainDeparting n s) := by
  induction n generalizing s with
  | zero => exact .refl s
  | succ n ih => exact (queuesKept_receiveDeparting s).trans (ih _)

/-- A change of entries in place keeps the queue's records. -/
theorem queuesKept_mapQueue {f : Entry → Entry} (same : ∀ e, (f e).cue.record = e.cue.record) (s : State) :
    QueuesKept s (mapQueue f s) := by
  refine queuesKept_of_shrink ?_ (.inl rfl) le_rfl id
  show ((s.scheduler.queue.map f).map (·.cue.record)).Sublist _
  rw [List.map_map]
  exact (List.map_congr_left fun e _ => same e).symm ▸ List.Sublist.refl _

theorem queuesKept_depart (pick : Entry → Bool) (why : Departure) (s : State) : QueuesKept s (depart pick why s) := by
  unfold depart
  refine (queuesKept_mapQueue (fun e => ?_) s).trans (queuesKept_drainDeparting _ _)
  split <;> rfl

theorem queuesKept_receiveWaiting (s : State) : QueuesKept s (receiveWaiting s) :=
  ((queuesKept_drainDeparting _ s).trans (queuesKept_foldl (fun u _ => queuesKept_receiveHoldFault u) _ _)).trans
    (queuesKept_foldl (fun u _ => queuesKept_receiveHandoff u) _ _)

/-! ## Following -/

theorem queuesKept_setFollower {f : Follower} {s : State} (h : f.fetch = s.follower.fetch ∨ f.fetch = none) :
    QueuesKept s (s.setFollower f) :=
  (onlyIn_setFollower s f).queuesKept_of_fetch (h.imp fetchingRecord_of_fetch fetchingRecord_of_none)

theorem queuesKept_followFrom (address : Nat) (s : State) : QueuesKept s (followFrom address s) := by
  unfold followFrom
  split
  · exact (queuesKept_setFollower (.inr rfl)).trans (queuesKept_reportHold _ _)
  · exact queuesKept_setFollower (.inr rfl)

theorem queuesKept_resumeFollowing (s : State) : QueuesKept s (resumeFollowing s) := by
  unfold resumeFollowing
  split
  · exact queuesKept_setFollower (.inr rfl)
  · exact queuesKept_followFrom _ s
  · exact queuesKept_setFollower (.inr rfl)

theorem queuesKept_linkReturned (s : State) : QueuesKept s (linkReturned s) := by
  unfold linkReturned
  split
  · split
    · exact queuesKept_setFollower (.inr rfl)
    · split
      · exact (queuesKept_setFollower (.inr rfl)).trans (queuesKept_reportHold _ _)
      · exact queuesKept_setFollower (.inr rfl)
  all_goals exact .refl s

/-- A fetch begins with a place in the look-ahead queue, two open places, and a record not in use (R35). -/
theorem queuesKept_fetchBegin (s : State) : QueuesKept s (fetchBegin s) := by
  unfold fetchBegin
  split
  · exact .refl s
  · next begins =>
    have idle : s.follower.fetch = none := by
      rw [not_or] at begins
      simpa using begins.2
    have none : s.fetchingRecord = none := fetchingRecord_of_none idle
    split
    · exact queuesKept_setFollower (.inl rfl)
    · next room =>
      split
      · exact queuesKept_setFollower (.inl rfl)
      · next free =>
        split
        · exact .refl s
        · next open' =>
          constructor
          · rintro ⟨-, distinct, -⟩
            refine ⟨?_, distinct, fun a same there => free ?_⟩
            · show s.scheduler.queue.length + 1 ≤ Config.queueDepth
              omega
            · obtain rfl : s.follower.follow = a := Option.some.inj same
              obtain ⟨e, here, record⟩ := List.mem_map.1 there
              exact (s.recordInUse_iff _).2 (.inl ⟨e, here, record⟩)
          · intro inv
            have spare := spare_of_free (free_of_openPlaces (Nat.le_of_not_lt open')) inv
            unfold Spare at spare
            rw [State.reservedPlaces_eq, none] at spare
            unfold WriteQueueInv
            rw [State.reservedPlaces_eq]
            show s.report.queue.length + (2 + if s.commit.attempt.isSome then 2 else 0) ≤ _
            simp only [Option.isSome_none, Bool.false_eq_true, if_false] at spare
            omega

/-- The end of a record fetch frees its two places. -/
theorem spare_of_fetch {s t : State} {a : Nat} (fetching : s.fetchingRecord = some a) (ended : t.fetchingRecord = none)
    (report : t.report = s.report) (commit : t.commit = s.commit) (inv : WriteQueueInv s) : Spare 2 t := by
  unfold WriteQueueInv at inv
  unfold Spare
  rw [State.reservedPlaces_eq, fetching] at inv
  rw [State.reservedPlaces_eq, ended, report, commit]
  simp only [Option.isSome_none, Option.isSome_some, Bool.false_eq_true, if_false, if_true] at inv ⊢
  omega

theorem newEntry_cue (s : State) (c : Cue) : (newEntry s c).cue = c := by
  unfold newEntry
  dsimp only
  split <;> rfl

theorem lookAhead_enqueue {s : State} (h : LookAheadInv s) (x : QueueItem) : LookAheadInv (enqueue x s) :=
  ⟨h.room, h.distinct, h.fresh⟩

theorem takeLink_fetch (address link : Nat) (s : State) : (takeLink address link s).follower.fetch = none := by
  unfold takeLink
  split <;> rfl

/-- The record fetched takes its place in the queue as its fetch ends (R40). -/
theorem lookAhead_appendEntry {s t : State} {c : Cue} (fetching : s.fetchingRecord = some c.record)
    (ended : t.fetchingRecord = none) (same : t.scheduler = s.scheduler) (inv : LookAheadInv s) :
    LookAheadInv (appendEntry c t) := by
  obtain ⟨room, distinct, fresh⟩ := inv
  have records : (appendEntry c t).scheduler.queue.map (·.cue.record) =
      s.scheduler.queue.map (·.cue.record) ++ [c.record] := by
    show (t.scheduler.queue ++ [newEntry t c]).map (·.cue.record) = _
    rw [List.map_append, same, List.map_cons, newEntry_cue]
    rfl
  have none : (appendEntry c t).fetchingRecord = none := ended
  constructor
  · have length := congrArg List.length records
    rw [List.length_map, List.length_append, List.length_map, List.length_singleton] at length
    rw [fetching] at room
    rw [none, length]
    exact room
  · rw [records]
    exact List.nodup_append.2 ⟨distinct, List.nodup_singleton _, fun a here b there => by
      obtain rfl := List.mem_singleton.1 there
      exact fun same => fresh _ fetching (same ▸ here)⟩
  · intro a some
    rw [none] at some
    cases some

theorem queuesKept_judgeRecord {s : State} {a : Nat} (fetching : s.fetchingRecord = some a) (r : List Byte) :
    QueuesKept s (judgeRecord a r s) := by
  have only := onlyIn_takeLink a (recordLink r) s
  have ended : (takeLink a (recordLink r) s).fetchingRecord = none := fetchingRecord_of_none (takeLink_fetch _ _ _)
  have spare := spare_of_fetch fetching ended only.report only.commit
  unfold judgeRecord
  split
  · refine ⟨fun inv => lookAhead_enqueue (lookAhead_enqueue ?_ _) _, fun inv => ?_⟩
    · exact (only.queuesKept_of_fetch (.inr ended)).lookAhead inv
    · exact (spare_enqueue (spare_enqueue (n := 1) (spare inv) _) _).places
  · refine ⟨fun inv => lookAhead_enqueue ?_ _, fun inv => ?_⟩
    · exact lookAhead_appendEntry (c := cueAt a r) fetching ended only.scheduler inv
    · have held : Spare 2 (appendEntry (cueAt a r) (takeLink a (recordLink r) s)) := spare inv
      exact (spare_enqueue held _).places

theorem queuesKept_recordArrived (s : State) : QueuesKept s (recordArrived s) := by
  unfold recordArrived
  split
  · next a arrived data fetch =>
    have fetching : s.fetchingRecord = some a := by rw [State.fetchingRecord, fetch]
    dsimp only
    split
    · split
      · next reason detail _ =>
        have ended : (enterHold reason .record a s).fetchingRecord = none := rfl
        refine ⟨fun inv => lookAhead_enqueue ?_ _, fun inv => ?_⟩
        · exact ((onlyIn_enterHold _ _ _ s).queuesKept_of_fetch (.inr ended)).lookAhead inv
        · exact (spare_enqueue (n := 1) (spare_of_fetch fetching ended rfl rfl inv) _).places
      · split
        · exact (onlyIn_setFollower s _).queuesKept_of_fetch (.inl fetching.symm)
        · exact queuesKept_judgeRecord fetching _
    · exact queuesKept_judgeRecord fetching _
  all_goals exact .refl s

/-! ## Attempts -/

theorem queuesKept_endAttempt (s : State) : QueuesKept s (endAttempt s) :=
  (onlyIn_endAttempt s).queuesKept_of_commit fun h => nomatch h

/-- The end of an attempt frees its two places. -/
theorem spare_endAttempt {s : State} {a : Attempt} (attempt : s.commit.attempt = some a) (inv : WriteQueueInv s) :
    Spare 2 (endAttempt s) := by
  unfold WriteQueueInv at inv
  rw [State.reservedPlaces_eq, attempt] at inv
  unfold Spare
  rw [State.reservedPlaces_eq]
  exact inv

theorem queuesKept_move {s t : State} (h : RunMove s t) : QueuesKept s t := by
  cases h with
  | attempts due idle room body =>
    refine ⟨fun inv => ⟨inv.room, inv.distinct, inv.fresh⟩, fun inv => ?_⟩
    have free : 8 ≤ s.openPlaces := of_decide_eq_true (Bool.and_eq_true_iff.1 room).1
    have spare := spare_of_free (free_of_openPlaces free) inv
    unfold Spare at spare
    rw [State.reservedPlaces_eq, idle] at spare
    unfold WriteQueueInv
    rw [State.reservedPlaces_eq]
    show s.report.queue.length + ((if s.fetchingRecord.isSome then 2 else 0) + 2) ≤ _
    simp only [Option.isSome_none, Bool.false_eq_true, if_false] at spare
    omega
  | @commits v due idle room other place =>
    have only := onlyIn_commitDue v (s.now + s.horizon) s
    refine queuesKept_of_runs (queueRuns_commitDue ((dueEval_eq_some s _).1 due) other)
      (runKeeps_commitDue v s).told (by rw [only.report]) ?_
    rw [commitDue_commit]
    exact id

theorem queuesKept_attemptRun (n : Nat) (s : State) : QueuesKept s (attemptRun n s) :=
  attemptRun_induction .refl .trans queuesKept_move n s

/-- What the writes of a decided attempt take is what its two places gave (R79). -/
theorem queuesKept_decideScene {s : State} {a : Attempt} (attempt : s.commit.attempt = some a) (v : Eval)
    (l : List Assignment) : QueuesKept s (decideScene v a l (endAttempt s)) := by
  have ended := queuesKept_endAttempt s
  have spare := spare_endAttempt attempt
  generalize endAttempt s = u at *
  have left {w : State} (lookAhead : LookAheadInv u → LookAheadInv w) (places : Spare 2 u → WriteQueueInv w)
      (record : Nat) (n : Nat) : QueuesKept s (attemptRun n (leaveQueue record w)) := by
    refine QueuesKept.trans ?_ (queuesKept_attemptRun n _)
    exact QueuesKept.trans ⟨fun inv => lookAhead (ended.lookAhead inv), fun inv => places (spare inv)⟩
      (queuesKept_leaveQueue record w)
  unfold decideScene
  dsimp only
  split
  · refine left (w := enqueue _ (enqueueOutcome _ _ u)) (fun inv => ?_) (fun two => ?_) _ _
    · exact lookAhead_enqueue (lookAhead_enqueue inv _) _
    · exact (spare_enqueue (spare_enqueue (n := 1) two _) _).places
  · split
    · split
      · rw [commitScene_eq]
        have follower := (onlyIn_scenePlaced v (u.now + u.horizon) a l u).follower
        have scheduler := scenePlaced_scheduler v (u.now + u.horizon) a l u
        have commit := scenePlaced_commit v (u.now + u.horizon) a l u
        have report := congrArg List.length (scenePlaced_report v (u.now + u.horizon) a l u)
        have fetch := fetchingRecord_of_fetch (congrArg Follower.fetch follower)
        generalize scenePlaced v (u.now + u.horizon) a l u = w at *
        refine left (fun inv => ⟨?_, ?_, ?_⟩) (fun two => ?_) _ _
        · rw [scheduler, fetch]
          exact inv.room
        · rw [scheduler]
          exact inv.distinct
        · rw [scheduler, fetch]
          exact inv.fresh
        · rw [List.length_append, List.length_singleton] at report
          have reserved : w.reservedPlaces = u.reservedPlaces := by
            rw [State.reservedPlaces_eq, State.reservedPlaces_eq, fetch, commit]
          unfold Spare at two
          unfold WriteQueueInv
          omega
      · exact ended
    · split
      · exact ended.trans (queuesKept_mapQueue (fun e => by split <;> rfl) _)
      · exact left (w := enqueueOutcome _ _ u) (fun inv => lookAhead_enqueue inv _)
          (fun two => (spare_enqueue (n := 1) two _).places) _ _

theorem queuesKept_commitDecision (s : State) : QueuesKept s (commitDecision s) := by
  unfold commitDecision
  split
  · exact .refl s
  · next a attempt =>
    split
    · dsimp only
      split
      · exact queuesKept_endAttempt s
      · split
        · split
          · exact queuesKept_decideScene attempt _ _
          · exact queuesKept_endAttempt s
        all_goals exact queuesKept_endAttempt s
    · exact .refl s

/-! ## Grants and landings -/

theorem queuesKept_grantReport (i : Nat) (s : State) : QueuesKept s (grantReport i s) := by
  refine (onlyIn_grantReport i s).queuesKept_of_report ?_
  unfold grantReport
  split
  · exact le_rfl
  · exact (List.length_set ..).le

theorem queuesKept_grantFollower (s : State) : QueuesKept s (grantFollower s) := by
  refine (onlyIn_grantFollower s).queuesKept_of_fetch (.inl ?_)
  unfold grantFollower
  split
  · next fetch => rw [State.fetchingRecord, State.fetchingRecord, fetch]; rfl
  · next fetch => rw [State.fetchingRecord, State.fetchingRecord, fetch]; rfl
  all_goals rfl

theorem queuesKept_grantPlate (index : Nat) (s : State) : QueuesKept s (grantPlate index s) := by
  unfold grantPlate
  split
  · exact .refl s
  · next a attempt =>
    refine (onlyIn_setCommit s _).queuesKept_of_commit fun _ => ?_
    rw [attempt]
    rfl

theorem queuesKept_grantDecision (s : State) : QueuesKept s (grantDecision s) := by
  have place4 : QueuesKept s (grantPlace4 s) := by
    unfold grantPlace4
    split
    · exact queuesKept_grantPlate _ s
    · split
      · exact queuesKept_grantFollower s
      · split
        · exact (onlyIn_grantProfile s).queuesKept
        · exact (onlyIn_grantOther s).queuesKept
  unfold grantDecision
  split
  · exact (onlyIn_grantEngine _ _ s).queuesKept
  · split
    · exact (onlyIn_grantHost s).queuesKept
    · split
      · exact queuesKept_grantReport _ s
      · exact place4

theorem queuesKept_popReport (s : State) : QueuesKept s (popReport s) :=
  (onlyIn_popReport s).queuesKept_of_report (by
    show s.report.queue.tail.length ≤ _
    rw [List.length_tail]
    exact Nat.sub_le _ _)

theorem queuesKept_raise (c : Cause) (s : State) : QueuesKept s (raise c s) := (onlyIn_raise c s).queuesKept

theorem queuesKept_raiseIf (p : Prop) [Decidable p] (c : Cause) (s : State) :
    QueuesKept s (if p then raise c s else s) := by
  split
  · exact queuesKept_raise c s
  · exact .refl s

theorem queuesKept_outcomeLanded (s : State) : QueuesKept s (outcomeLanded s) := by
  have counted (kind : OutcomeKind) (u : State) : QueuesKept u (countFinal kind u) := by
    unfold countFinal
    split
    · refine QueuesKept.trans ((onlyIn_setReport u _).queuesKept_of_report ?_) (queuesKept_raise .final _)
      exact le_rfl
    · exact .refl u
  have told (u : State) : QueuesKept u (followerOnLanded u) := by
    refine (onlyIn_followerOnLanded u).queuesKept_of_fetch (.inl ?_)
    unfold followerOnLanded
    split
    · split <;> rfl
    all_goals rfl
  unfold outcomeLanded
  split
  · exact ((queuesKept_popReport s).trans (counted _ _)).trans (told _)
  all_goals exact .refl s

theorem queuesKept_faultLanded (s : State) : QueuesKept s (faultLanded s) := by
  unfold faultLanded
  split
  · exact ((queuesKept_popReport s).trans (queuesKept_raise .fault _)).trans (queuesKept_raiseIf _ .hold _)
  all_goals exact .refl s

theorem queuesKept_refreshLanded (s : State) : QueuesKept s (refreshLanded s) := by
  unfold refreshLanded
  split
  · split
    · exact ((queuesKept_popReport s).trans (queuesKept_raiseIf _ .mark _)).trans (queuesKept_raiseIf _ .store _)
    · exact .refl s
  all_goals exact .refl s

/-! ## Frame 0, levels and the store -/

theorem LevelOnly.attempt {s t : State} (h : LevelOnly s t) :
    t.commit.attempt.isSome = true → s.commit.attempt.isSome = true := by
  rw [h]
  exact id

theorem queuesKept_requestLevel (set : LevelSet) (s : State) : QueuesKept s (requestLevel set s) :=
  (onlyIn_requestLevel set s).queuesKept_of_commit (levelOnly_requestLevel set s).attempt

theorem queuesKept_takeReading (r : Nat) (s : State) : QueuesKept s (takeReading r s) :=
  (onlyIn_takeReading r s).queuesKept_of_commit (levelOnly_takeReading r s).attempt

theorem queuesKept_takeRefresh (s : State) : QueuesKept s (takeRefresh s) := by
  unfold takeRefresh
  split
  · next room =>
    exact (queuesKept_enqueue (free_of_openPlaces room) _).trans ((onlyIn_setReport _ _).queuesKept_of_report le_rfl)
  · exact (onlyIn_setReport s _).queuesKept_of_report le_rfl

theorem queuesKept_endJob (kind : JobKind) (outcome : JobOutcome) (s : State) : QueuesKept s (endJob kind outcome s) :=
  (onlyIn_endJob kind outcome s).queuesKept_of_report (by rw [endJob_report])

theorem queuesKept_placeJob (kind : JobKind) (writes : List (Nat × Byte)) (s : State) :
    QueuesKept s (placeJob kind writes s) := by
  unfold placeJob
  split
  · exact queuesKept_endJob _ _ s
  · exact (onlyIn_setStore s _).queuesKept

theorem queuesKept_adopt (p : Profile) (s : State) : QueuesKept s (adopt p s) := by
  have polling (u : State) : QueuesKept u (beginPolling u) := by
    refine (onlyIn_beginPolling u).queuesKept_of_commit (LevelOnly.attempt ?_)
    unfold beginPolling
    split
    · exact (onlyIn_setAmbient u _).levelOnly.trans (levelOnly_changeAmbient _)
    · exact (onlyIn_setAmbient u _).levelOnly
    · exact (onlyIn_setAmbient u _).levelOnly
  have adopted : QueuesKept s ((s.setProfile (some p)).setWindow { s.window with wall := .standby }) :=
    (onlyIn_setProfile s _).queuesKept.trans (onlyIn_setWindow _ _).queuesKept
  have begun (u : State) : QueuesKept u (beginRunning u) :=
    ((((onlyIn_setFtg u _).queuesKept.trans (onlyIn_forTiles _ beginLink onlyIn_beginLink _).queuesKept).trans
    (polling _)).trans (queuesKept_takeRefresh _)).trans (onlyIn_prepareEngines _).queuesKept
  exact adopted.trans (begun _)

theorem queuesKept_loadingEnd (unread : List Nat) (s : State) : QueuesKept s (loadingEnd unread s) := by
  unfold loadingEnd
  split
  · dsimp only
    split
    · exact ((onlyIn_setStore s _).queuesKept.trans (onlyIn_loadTrims _ _).queuesKept).trans (queuesKept_adopt _ _)
    · exact (onlyIn_setStore s _).queuesKept.trans (onlyIn_setWindow _ _).queuesKept
  · exact .refl s

theorem queuesKept_profileReadDone (s : State) : QueuesKept s (profileReadDone s) := by
  unfold profileReadDone
  split
  · split
    · dsimp only
      refine QueuesKept.trans (onlyIn_setWindow s { s.window with adoption := none }).queuesKept ?_
      generalize s.setWindow { s.window with adoption := none } = u
      split
      · unfold adoptRecord
        dsimp only
        split
        · exact (queuesKept_adopt _ u).trans (queuesKept_placeJob _ _ _)
        · exact (queuesKept_adopt _ u).trans (onlyIn_setWindow _ _).queuesKept
      · exact (onlyIn_setWindow u _).queuesKept
    · exact .refl s
    · exact .refl s
  · exact .refl s

/-! ## The frame start -/

theorem queuesKept_completeReaching (s : State) (x : Reaching) : QueuesKept s (completeReaching s x) := by
  cases x with
  | scene e =>
    show QueuesKept s (showScene e s)
    unfold showScene
    refine QueuesKept.trans ((onlyIn_setCommit s _).queuesKept_of_commit ?_) (queuesKept_handOn _ _ _)
    exact id
  | due d =>
    show QueuesKept s (completeDue d s)
    unfold completeDue
    dsimp only
    refine QueuesKept.trans ?_ (queuesKept_handOn _ _ _)
    refine ((onlyIn_setCommit s _).queuesKept_of_commit ?_).trans
      ((onlyIn_dueEffect d (s.setCommit { s.commit with due := _ })).queuesKept_of_report ?_)
    · exact id
    · generalize s.setCommit { s.commit with due := s.commit.due.filter (fun x => x.pass != d.pass) } = u
      obtain ⟨tag, body⟩ | ⟨entries, body, persist⟩ | ⟨noMark, noJob⟩ := d.effect_cases
      · rw [dueEffect_of_mark body]
        exact le_rfl
      · rw [dueEffect_of_persist body persist, offerTrimJob_report]
      · rw [dueEffect_of_other noMark noJob]

theorem queuesKept_releaseScenes (s : State) : QueuesKept s (releaseScenes s) := by
  unfold releaseScenes
  refine ((onlyIn_setCommit s _).queuesKept_of_commit ?_).trans (queuesKept_foldl (fun u e => ?_) _ _)
  · exact id
  · split
    · exact .refl u
    · exact queuesKept_handOn _ _ u

theorem queuesKept_setShowing (l : List ShowEntry) (s : State) :
    QueuesKept s (s.setCommit { s.commit with showing := l }) := (onlyIn_setCommit s _).queuesKept_of_commit id

theorem queuesKept_takeSwitch (k : Nat) (s : State) (sw : Switch) : QueuesKept s (takeSwitch k s sw) := by
  have taken (id : PassId) (u : State) : QueuesKept u (sceneTaken k id u) := by
    rw [sceneTaken]
    exact (queuesKept_setShowing _ u).trans (onlyIn_updTile k _ _).queuesKept
  unfold takeSwitch
  split
  · exact (onlyIn_updTile k _ s).queuesKept.trans (taken _ _)
  · exact (onlyIn_updTile k _ s).queuesKept
  · exact (onlyIn_updTile k _ s).queuesKept

theorem queuesKept_scanTile (k : Nat) (s : State) : QueuesKept s (scanTile k s) := by
  have stops (u : State) : QueuesKept u (takeStop k u) := by
    unfold takeStop
    split
    · exact (onlyIn_updTile k _ u).queuesKept.trans (queuesKept_setShowing _ _)
    · exact .refl u
  exact ((onlyIn_updTile k _ s).queuesKept.trans (queuesKept_foldl (queuesKept_takeSwitch k) _ _)).trans (stops _)

theorem queuesKept_scanAtFrameStart (s : State) : QueuesKept s (scanAtFrameStart s) :=
  (queuesKept_foldl (fun s k => queuesKept_scanTile k s) _ s).trans
    (onlyIn_setWindow (forTiles Config.tileCount scanTile s) _).queuesKept

theorem queuesKept_scheduleAtFrameStart (s : State) : QueuesKept s (scheduleAtFrameStart s) := by
  refine (queuesKept_depart _ _ s).trans (queuesKept_mapQueue (fun e => ?_) _)
  split <;> rfl

theorem queuesKept_beginFrame (s : State) : QueuesKept s (beginFrame s) :=
  (((onlyIn_linksAtFrameStart s).queuesKept.trans (onlyIn_setFtg _ _).queuesKept).trans
    (queuesKept_endAttempt _)).trans (queuesKept_receiveWaiting _)

theorem queuesKept_completeStop (s : State) : QueuesKept s (completeStop s) := by
  refine (onlyIn_completeStop s).queuesKept_of_commit ?_
  unfold completeStop
  split <;> exact id

theorem queuesKept_retryLevelRequest (s : State) : QueuesKept s (retryLevelRequest s) := by
  unfold retryLevelRequest
  split
  · exact .refl s
  · exact queuesKept_requestLevel _ s

theorem queuesKept_pollLink (s : State) : QueuesKept s (pollLink s) := by
  unfold pollLink
  split
  · exact (onlyIn_setFollower s _).queuesKept_of_fetch (.inr rfl)
  · exact .refl s

theorem queuesKept_untilRefresh (s : State) : QueuesKept s (untilRefresh s) := by
  have scanned : QueuesKept s (frameScanned s) :=
    ((queuesKept_beginFrame s).trans (queuesKept_scheduleAtFrameStart _)).trans (queuesKept_scanAtFrameStart _)
  have released : QueuesKept s (frameReleased s) :=
    (scanned.trans (queuesKept_foldl queuesKept_completeReaching _ _)).trans (queuesKept_releaseScenes _)
  rw [untilRefresh_eq]
  exact ((released.trans (queuesKept_completeStop _)).trans (queuesKept_retryLevelRequest _)).trans
    (onlyIn_prepareEngines _).queuesKept

theorem queuesKept_wholeFrameStart (s : State) : QueuesKept s (wholeFrameStart s) := by
  have marked (u : State) : QueuesKept u (markAttemptable u) := by
    unfold markAttemptable
    refine queuesKept_mapQueue (fun e => ?_) u
    rfl
  rw [wholeFrameStart_eq, frameRun]
  exact ((((queuesKept_untilRefresh s).trans (queuesKept_takeRefresh _)).trans (marked _)).trans
    (queuesKept_attemptRun _ _)).trans (queuesKept_pollLink _)

theorem queuesKept_frameStart (s : State) : QueuesKept s (frameStart s) := by
  cases running : s.ftg.running with
  | false =>
    rw [frameStart_of_stopped running]
    exact .refl s
  | true =>
    cases begun : s.ftg.begun with
    | true =>
      rw [frameStart_of_begun running begun]
      exact (onlyIn_setFtg s _).queuesKept
    | false =>
      rw [frameStart_of_not_begun running begun]
      exact queuesKept_wholeFrameStart s

theorem queuesKept_waitLimitSkip (record : Nat) (s : State) : QueuesKept s (waitLimitSkip record s) := by
  unfold waitLimitSkip
  split
  · exact (queuesKept_wholeFrameStart s).trans (onlyIn_setFtg _ _).queuesKept
  · exact .refl s

/-! ## Events and byte writes -/

theorem queuesKept_resolveWait (record : Nat) (s : State) : QueuesKept s (resolveWait record s) := by
  refine queuesKept_mapQueue (fun e => ?_) s
  split <;> rfl

theorem queuesKept_triggerEvent (s : State) : QueuesKept s (triggerEvent s) := by
  unfold triggerEvent
  split
  · exact .refl s
  · split
    · exact queuesKept_resolveWait _ s
    · split
      · split
        · exact queuesKept_of_shrink (.refl _) (.inl rfl) le_rfl id
        · exact .refl s
      · exact .refl s

theorem queuesKept_acceptEvent (i : EventInput) (s : State) : QueuesKept s (acceptEvent i s) := by
  cases i with
  | trigger => exact queuesKept_triggerEvent s
  | pulse =>
    have pulse : QueuesKept s (pulseEvent s) := by
      unfold pulseEvent
      split
      · exact .refl s
      · split
        · exact queuesKept_resolveWait _ s
        · exact .refl s
    exact pulse.trans (onlyIn_pendAlignment _).queuesKept

theorem queuesKept_inputActive (i : EventInput) (s : State) : QueuesKept s (inputActive i s) := by
  unfold inputActive
  split
  · exact .refl s
  · dsimp only
    split
    · unfold qualify
      split
      · exact ((onlyIn_setPins s _).queuesKept.trans (onlyIn_setFilter i _ _).queuesKept).trans
          (queuesKept_acceptEvent i _)
      · exact (onlyIn_setPins s _).queuesKept.trans (onlyIn_setFilter i _ _).queuesKept
    · exact (onlyIn_setPins s _).queuesKept

theorem queuesKept_widthReached (i : EventInput) (s : State) : QueuesKept s (widthReached i s) := by
  unfold widthReached
  split
  · split
    · exact (onlyIn_setFilter i _ s).queuesKept.trans (queuesKept_acceptEvent i _)
    · exact .refl s
  · exact .refl s
  · exact .refl s

theorem queuesKept_byteWritten (s : State) : QueuesKept s (byteWritten s) := by
  unfold byteWritten
  split
  · exact .refl s
  · exact .refl s
  · dsimp only
    split
    · exact (onlyIn_setStore s _).queuesKept.trans (queuesKept_endJob _ _ _)
    · exact (onlyIn_setStore s _).queuesKept.trans (onlyIn_setStore _ _).queuesKept

theorem queuesKept_byteFailed (s : State) : QueuesKept s (byteFailed s) := by
  unfold byteFailed
  split
  · exact .refl s
  · exact .refl s
  · exact ((onlyIn_setStore s _).queuesKept.trans (onlyIn_setFreeIndex _ _).queuesKept).trans (queuesKept_endJob _ _ _)

/-! ## Every command -/

theorem queuesKept_command {c : Command} {take : State → State} {s : State} (h : QueuesKept s (take s)) :
    QueuesKept s (command c take s) := by
  cases judged : judge c s with
  | none =>
    rw [command_taken take judged]
    exact h
  | some r =>
    rw [command_refused take judged]
    exact (onlyIn_recordCommand c r s).queuesKept

theorem queuesKept_withdrawn (s : State) : QueuesKept s (withdrawAll (endAttempt (endFollowing s))) :=
  ((queuesKept_setFollower (.inr rfl)).trans (queuesKept_endAttempt _)).trans (queuesKept_depart _ _ _)

theorem queuesKept_setAnchor (s : State) : QueuesKept s (setAnchor s) :=
  queuesKept_of_shrink (.refl _) (.inl rfl) le_rfl id

theorem queuesKept_takeRedirect (s : State) : QueuesKept s (takeRedirect s) :=
  (((onlyIn_recordCommand .redirect .accepted s).queuesKept.trans (queuesKept_withdrawn _)).trans
    (queuesKept_setAnchor _)).trans (queuesKept_followFrom _ _)

theorem queuesKept_takeStart (s : State) : QueuesKept s (takeStart s) :=
  (((onlyIn_recordCommand .start .accepted s).queuesKept.trans (onlyIn_setWindow _ _).queuesKept).trans
    (queuesKept_setAnchor _)).trans (queuesKept_followFrom _ _)

theorem queuesKept_takeStopCommand (s : State) : QueuesKept s (takeStopCommand s) := by
  have placed (vs : Nat) (u : State) : QueuesKept u (stopPlaced vs u) := (onlyIn_stopPlaced vs u).queuesKept
  have stops (vs : Nat) (u : State) : QueuesKept u (u.setCommit { u.commit with stopFrame := some vs }) :=
    (onlyIn_setCommit u _).queuesKept_of_commit id
  exact ((((onlyIn_recordCommand .stop .busy s).queuesKept.trans (queuesKept_withdrawn _)).trans (placed _ _)).trans
    (stops _ _)).trans (onlyIn_setWindow _ _).queuesKept

theorem queuesKept_takeWallReset (s : State) : QueuesKept s (takeWallReset s) := by
  have cleared : QueuesKept s (resetCleared s) :=
    queuesKept_of_shrink (List.nil_sublist _) (.inr rfl) le_rfl fun h => nomatch h
  rw [takeWallReset_requests]
  exact cleared.trans (queuesKept_requestLevel _ _)

/-- Every command keeps the bounds of the look-ahead queue and the places of the write queue. -/
theorem queuesKept_exec {c : Instr} {s t : State} (ran : exec c s = .next t) : QueuesKept s t := by
  have ends {u : State} (same : exec c s = .next u) (h : QueuesKept s u) : QueuesKept s t :=
    Host.Outcome.next.inj (same.symm.trans ran) ▸ h
  have told {u : State} (same : exec c s = .next (dryEdge s u)) (h : QueuesKept s u) : QueuesKept s t :=
    ends same (h.trans (onlyIn_dryEdge_after s u).queuesKept)
  have other (hs : Part.scheduler ∉ parts c) (hf : Part.follower ∉ parts c) (hr : Part.report ∉ parts c)
      (hc : Part.commit ∉ parts c) : QueuesKept s t := (onlyIn_exec ran).queuesKept hs hf hr hc
  cases c with
  | deviceReset cut =>
    refine ends rfl ⟨fun _ => ?_, fun _ => ?_⟩
    · exact ⟨(Nat.zero_le 8 : 0 ≤ 8), List.nodup_nil, fun _ h => nomatch h⟩
    · exact (Nat.zero_le 64 : 0 ≤ 64)
  | loadingEnd unread => exact ends rfl (queuesKept_loadingEnd unread s)
  | profileRecordReadDone => exact ends rfl (queuesKept_profileReadDone s)
  | start => exact ends rfl (queuesKept_command (queuesKept_takeStart s))
  | redirect => exact ends rfl (queuesKept_command (queuesKept_takeRedirect s))
  | resume =>
    have resumed : QueuesKept s (takeResume s) :=
      (onlyIn_recordCommand .resume .accepted s).queuesKept.trans (queuesKept_resumeFollowing _)
    exact told rfl (queuesKept_command resumed)
  | stop => exact ends rfl (queuesKept_command (queuesKept_takeStopCommand s))
  | wallReset => exact ends rfl (queuesKept_command (queuesKept_takeWallReset s))
  | invalidateStore =>
    have placed : QueuesKept s (takeInvalidate s) :=
      (onlyIn_recordCommand .invalidateStore .busy s).queuesKept.trans (queuesKept_placeJob _ _ _)
    exact ends rfl (queuesKept_command placed)
  | grantDecision => exact ends rfl (queuesKept_grantDecision s)
  | frameStart => exact told rfl (queuesKept_frameStart s)
  | waitLimitSkip record => exact told rfl (queuesKept_waitLimitSkip record s)
  | commitDecision => exact told rfl (queuesKept_commitDecision s)
  | linkReadReturn => exact ends rfl (queuesKept_linkReturned s)
  | fetchBegin => exact ends rfl (queuesKept_fetchBegin s)
  | recordWordsArrived => exact told rfl (queuesKept_recordArrived s)
  | departingWriteReceived => exact told rfl (queuesKept_receiveDeparting s)
  | holdFaultReceived => exact ends rfl (queuesKept_receiveHoldFault s)
  | handoffWriteReceived => exact ends rfl (queuesKept_receiveHandoff s)
  | outcomeWriteLanded => exact ends rfl (queuesKept_outcomeLanded s)
  | faultRecordLanded => exact ends rfl (queuesKept_faultLanded s)
  | refreshLanded => exact ends rfl (queuesKept_refreshLanded s)
  | eventInputActive i => exact ends rfl (queuesKept_inputActive i s)
  | filterWidthReached i => exact ends rfl (queuesKept_widthReached i s)
  | sensorReading x y =>
    refine ends rfl ?_
    split
    · exact queuesKept_takeReading _ s
    · exact .refl s
  | byteWriteDone => exact ends rfl (queuesKept_byteWritten s)
  | byteWriteFailed => exact ends rfl (queuesKept_byteFailed s)
  | _ => exact other (by simp [parts]) (by simp [parts]) (by simp [parts]) (by simp [parts])

/-- Settles O6: of every command, from `queuesKept_exec`. -/
theorem lookAheadQueueBoundsKept : Obligations.LookAheadQueueBoundsKept := by
  intro s t inv ran
  exact step_keeps (fun inv ran => (queuesKept_exec ran).lookAhead inv) (fun inv => ⟨inv.room, inv.distinct, inv.fresh⟩)
    inv ran

/-- Settles O7: of every command, from `queuesKept_exec`. -/
theorem writeQueuePlacesKept : Obligations.WriteQueuePlacesKept := by
  intro s t inv ran
  exact step_keeps (fun inv ran => (queuesKept_exec ran).places inv) (fun inv => inv) inv ran

end Sys2Proof.Machine
end

section
/-! Tile columns: the steps that leave the pending lists alone (R83, R86, R119). -/

set_option Elab.async false

namespace Sys2Proof.Machine

/-! ## Tiles with their lists and latencies -/

/-- The pending list stands; no latency is new, and the link carries content only if it did. -/
structure Tile.Calm (t t' : Tile) : Prop where
  switches : t'.switches = t.switches
  carries : t'.link.state.carries = true → t.link.state.carries = true ∧ t'.link.descriptor = t.link.descriptor

theorem Tile.Calm.refl (t : Tile) : t.Calm t := ⟨rfl, fun h => ⟨h, rfl⟩⟩

theorem Tile.Calm.trans {a b c : Tile} (h : a.Calm b) (g : b.Calm c) : a.Calm c := by
  refine ⟨g.switches.trans h.switches, fun carries => ?_⟩
  obtain ⟨before, same⟩ := g.carries carries
  obtain ⟨first, same'⟩ := h.carries before
  exact ⟨first, same.trans same'⟩

theorem Tile.Calm.of_link {t t' : Tile} (switches : t'.switches = t.switches) (state : t'.link.state = t.link.state)
    (descriptor : t'.link.descriptor = t.link.descriptor) : t.Calm t' :=
  ⟨switches, fun h => ⟨by rw [← state]; exact h, descriptor⟩⟩

theorem Tile.Calm.latency {t t' : Tile} (h : t.Calm t') {n : Nat} (known : t'.link.latency = some n) :
    t.link.latency = some n := by
  unfold Link.latency at known ⊢
  split at known
  · next carries =>
    obtain ⟨before, same⟩ := h.carries carries
    rw [if_pos before, ← same]
    exact known
  · cases known

/-- Every tile column calm. -/
structure TilesCalm (s t : State) : Prop where
  length : t.tiles.length = s.tiles.length
  tile : ∀ k, (s.tile k).Calm (t.tile k)

theorem TilesCalm.refl (s : State) : TilesCalm s s := ⟨rfl, fun _ => .refl _⟩

theorem TilesCalm.trans {s t u : State} (h : TilesCalm s t) (g : TilesCalm t u) : TilesCalm s u :=
  ⟨g.length.trans h.length, fun k => (h.tile k).trans (g.tile k)⟩

theorem OnlyIn.tilesCalm {ps : List Part} {s t : State} (h : OnlyIn ps s t) (ht : Part.tiles ∉ ps := by decide) :
    TilesCalm s t := by
  refine ⟨by rw [h.tiles ht], fun k => ?_⟩
  rw [h.tile k ht]
  exact .refl _

theorem tilesCalm_setTile {k : Nat} {t : Tile} {s : State} (h : (s.tile k).Calm t) : TilesCalm s (s.setTile k t) := by
  refine ⟨State.setTile_tiles_length s k t, fun j => ?_⟩
  by_cases same : j = k
  · subst same
    by_cases there : j < s.tiles.length
    · rw [State.tile_setTile_same t there]
      exact h
    · have past : s.setTile j t = s := State.updTile_of_length_le (fun _ => t) (Nat.le_of_not_lt there)
      rw [past]
      exact .refl _
  · rw [State.tile_setTile_ne t same]
    exact .refl _

theorem tilesCalm_updTile {k : Nat} {f : Tile → Tile} (s : State) (h : ∀ t : Tile, t.Calm (f t)) :
    TilesCalm s (s.updTile k f) := tilesCalm_setTile (h _)

theorem tilesCalm_forTiles {n : Nat} {f : Nat → State → State} (h : ∀ k s, TilesCalm s (f k s)) (s : State) :
    TilesCalm s (forTiles n f s) := by
  unfold forTiles
  induction List.range n generalizing s with
  | nil => exact .refl s
  | cons k rest ih => exact (h k s).trans (ih _)

theorem tilesCalm_mapIdx {f : Nat → Tile → Tile} (s : State) (h : ∀ k, ∀ t : Tile, t.Calm (f k t)) :
    TilesCalm s (s.setTiles (s.tiles.mapIdx f)) := by
  refine ⟨List.length_mapIdx, fun k => ?_⟩
  by_cases there : k < s.tiles.length
  · have before : s.tile k = s.tiles[k] := List.getD_eq_getElem _ _ there
    have after : (s.setTiles (s.tiles.mapIdx f)).tile k = f k s.tiles[k] := by
      refine (List.getD_eq_getElem (l := s.tiles.mapIdx f) _ (by rwa [List.length_mapIdx])).trans ?_
      exact List.getElem_mapIdx ..
    rw [before, after]
    exact h k _
  · have past := Nat.le_of_not_lt there
    rw [State.tile_of_length_le past,
      State.tile_of_length_le (s := s.setTiles (s.tiles.mapIdx f)) (by rwa [State.setTiles_tiles, List.length_mapIdx])]
    exact .refl _

theorem tilesCalm_map {f : Tile → Tile} (s : State) (h : ∀ t : Tile, t.Calm (f t)) :
    TilesCalm s (s.setTiles (s.tiles.map f)) := by
  have calm := tilesCalm_mapIdx (f := fun _ => f) s fun _ => h
  have same : s.tiles.mapIdx (fun _ => f) = s.tiles.map f :=
    List.ext_getElem (by rw [List.length_mapIdx, List.length_map]) fun i _ _ => by
      rw [List.getElem_mapIdx, List.getElem_map]
  rwa [same] at calm

/-! ## The blocks that work on tiles -/

theorem tilesCalm_grantEngine (k : Nat) (urgent : Bool) (s : State) : TilesCalm s (grantEngine k urgent s) :=
  (tilesCalm_updTile (k := k) (f := fun t => { t with engine := t.engine.grant s.mem }) s
    fun t => .of_link rfl rfl rfl).trans (onlyIn_setArbiter _ _).tilesCalm

theorem tilesCalm_raiseIf (p : Prop) [Decidable p] (c : Cause) (s : State) :
    TilesCalm s (if p then raise c s else s) := by
  split
  · exact (onlyIn_raise c s).tilesCalm
  · exact .refl s

theorem tilesCalm_linkTakesPixel (k : Nat) (s : State) : TilesCalm s (linkTakesPixel k s) := by
  unfold linkTakesPixel
  split
  · exact .refl s
  · split
    · split
      · exact .refl s
      · refine (tilesCalm_setTile (k := k) (t := ((s.tile k).takePixel s.prof (s.prof.size k)).1) ?_).trans
          (tilesCalm_raiseIf _ .underrun _)
        exact .of_link rfl rfl rfl
    · split
      · exact .refl s
      · exact tilesCalm_updTile s fun t => .of_link rfl rfl rfl

theorem tilesCalm_burstArrives (k : Nat) (a : Arrival) (s : State) : TilesCalm s (burstArrives k a s) := by
  unfold burstArrives
  split
  · exact .refl s
  · exact tilesCalm_updTile s fun t => .of_link rfl rfl rfl

theorem tilesCalm_takeEcho (k : Nat) (tag : Byte) (s : State) : TilesCalm s (takeEcho k tag s) := by
  unfold takeEcho
  split
  · exact tilesCalm_updTile s fun t => .of_link rfl rfl rfl
  · exact .refl s

theorem Link.applyGrace_state (frame : Nat) (l : Link) :
    (l.applyGrace frame).state = l.state ∧ (l.applyGrace frame).descriptor = l.descriptor := by
  unfold Link.applyGrace
  split
  · split <;> exact ⟨rfl, rfl⟩
  · exact ⟨rfl, rfl⟩

theorem Link.stepGraced_carries {frame grace horizon : Nat} {l : Link}
    (h : (l.stepGraced frame grace horizon).1.state.carries = true) :
    l.state.carries = true ∧ (l.stepGraced frame grace horizon).1.descriptor = l.descriptor := by
  obtain ⟨state, descriptor⟩ := l.applyGrace_state frame
  unfold Link.stepGraced at h ⊢
  dsimp only at h ⊢
  split at h
  · cases h
  · next stays =>
    rw [if_neg stays]
    split at h
    · next joining =>
      rw [if_pos joining]
      refine ⟨by rw [joining.1]; rfl, ?_⟩
      split <;> exact descriptor
    · next other =>
      rw [if_neg other]
      exact ⟨state ▸ h, descriptor⟩

/-- A controller's action at a frame start makes no link carry content (R138, R139, R141 to R143). -/
theorem Link.atFrameStart_carries {frame grace horizon : Nat} {l : Link}
    (h : (l.atFrameStart frame grace horizon).1.state.carries = true) :
    l.state.carries = true ∧ (l.atFrameStart frame grace horizon).1.descriptor = l.descriptor := by
  cases graced : l.state.graced with
  | true =>
    rw [Link.atFrameStart_graced graced] at h ⊢
    exact Link.stepGraced_carries h
  | false =>
    refine absurd h ?_
    unfold Link.atFrameStart
    cases state : l.state with
    | joining => rw [state] at graced; cases graced
    | inStep => rw [state] at graced; cases graced
    | misfit => rw [state] at graced; cases graced
    | absent =>
      dsimp only
      split
      · exact Bool.false_ne_true
      · exact Bool.false_ne_true
    | training =>
      dsimp only
      split
      · exact Bool.false_ne_true
      · exact Bool.false_ne_true
    | lost =>
      dsimp only
      split
      · exact Bool.false_ne_true
      · split
        · exact Bool.false_ne_true
        · exact Bool.false_ne_true

theorem tilesCalm_stepLink (k : Nat) (s : State) : TilesCalm s (stepLink k s) := by
  refine (tilesCalm_setTile (k := k) ?_).trans (tilesCalm_raiseIf _ .tile _)
  exact ⟨rfl, Link.atFrameStart_carries⟩

theorem tilesCalm_linkAhead (event : LinkEvent) (k : Nat) (s : State) : TilesCalm s (linkAhead event k s) := by
  unfold linkAhead
  split
  · exact (tilesCalm_stepLink k s).trans (tilesCalm_updTile _ fun t => .of_link rfl rfl rfl)
  · exact .refl s

theorem tilesCalm_linksAtFrameStart (s : State) : TilesCalm s (linksAtFrameStart s) := by
  refine tilesCalm_forTiles (fun k u => ?_) s
  unfold stepLinkUnlessDone
  split
  · exact .refl u
  · split
    · exact tilesCalm_updTile u fun t => .of_link rfl rfl rfl
    · exact tilesCalm_stepLink k u

theorem tilesCalm_prepareEngines (s : State) : TilesCalm s (prepareEngines s) :=
  tilesCalm_map s fun _ => .of_link rfl rfl rfl

theorem tilesCalm_beginLink (k : Nat) (s : State) : TilesCalm s (beginLink k s) :=
  tilesCalm_updTile s fun _ => ⟨rfl, fun h => (nomatch h)⟩

theorem tilesCalm_loadTrims (image : List (Option Byte)) (s : State) : TilesCalm s (loadTrims image s) :=
  tilesCalm_mapIdx s fun _ _ => .of_link rfl rfl rfl

theorem tilesCalm_stopPlaced (vs : Nat) (s : State) : TilesCalm s (stopPlaced vs s) := by
  refine tilesCalm_forTiles (fun k u => ?_) s
  refine tilesCalm_updTile u fun t => ?_
  exact .of_link rfl rfl rfl

theorem tilesCalm_grantDecision (s : State) : TilesCalm s (grantDecision s) := by
  have other (u : State) : TilesCalm u (grantOther u) := by
    unfold grantOther
    split
    · exact tilesCalm_grantEngine _ _ u
    · exact .refl u
  unfold grantDecision
  split
  · exact tilesCalm_grantEngine _ _ s
  · split
    · exact (onlyIn_grantHost s).tilesCalm
    · split
      · exact (onlyIn_grantReport _ s).tilesCalm
      · unfold grantPlace4
        split
        · exact (onlyIn_grantPlate _ s).tilesCalm
        · split
          · exact (onlyIn_grantFollower s).tilesCalm
          · split
            · exact (onlyIn_grantProfile s).tilesCalm
            · exact other s

end Sys2Proof.Machine
end

section
/-! The pending switch lists (R83, R86, R87). -/

set_option Elab.async false

namespace Sys2Proof.Machine

/-! ## The invariant, tile by tile -/

/-- One tile's pending list in order, with what its bound rests on. -/
structure Tile.Orderly (now lmax : Nat) (adopted : Bool) (t : Tile) : Prop where
  places : t.switches.length ≤ 16
  ordered : t.switches.Pairwise (fun x y => x.frame ≤ y.frame)
  ahead : ∀ sw ∈ t.switches, now < sw.frame
  latency : ∀ n, t.link.latency = some n → n ≤ lmax
  idle : adopted = false → t.link.state.carries = false

/-- No tile is named twice in a cue. -/
def CueBody.TilesOnce : CueBody → Prop
  | .scene l => (l.map (·.tile)).Nodup
  | .trim l => (l.map (·.tile)).Nodup
  | .clock _ => True
  | .mark _ => True

/-- What the pending lists' invariant rests on inside a step. -/
structure ListsOk (s : State) : Prop where
  tile : ∀ k, (s.tile k).Orderly s.now s.prof.lmax s.profile.isSome
  begun : s.profile = none → s.ftg.begun = false
  once : ∀ e ∈ s.scheduler.queue, e.cue.body.TilesOnce
  running : s.profile = none → s.ftg.running = false
  size : s.tiles.length ≤ 16

/-- Ahead of the present frame every entry counts. -/
theorem countP_ahead {n : Nat} {l : List Switch} (ahead : ∀ sw ∈ l, n < sw.frame) :
    l.countP (fun sw => sw.frame != n) = l.length := by
  rw [List.countP_eq_length]
  intro sw there
  have := ahead sw there
  rw [bne_iff_ne]
  omega

theorem listsOk_of_inv {s : State} (control : ControlInv s) (depth : DepthInv s) (inv : SwitchInv s) : ListsOk s where
  tile k := by
    refine ⟨?_, inv.ordered k, inv.ahead k, inv.latency k, fun none => ?_⟩
    · rw [← countP_ahead (inv.ahead k)]
      exact inv.places k
    · exact (inv.idle (by simpa using none)).2 k
  begun none := (inv.idle none).1
  once e there := by
    have once := inv.tilesOnce e there
    cases body : e.cue.body <;> rw [body] at once <;> exact once
  running none := by
    rw [control.beat, none]
    rfl
  size := depth.tiles.le

theorem switchInv_of_listsOk {s : State} (ok : ListsOk s) : SwitchInv s where
  places k := by
    rw [countP_ahead (ok.tile k).ahead]
    exact (ok.tile k).places
  ordered k := (ok.tile k).ordered
  ahead k := (ok.tile k).ahead
  latency k := (ok.tile k).latency
  idle none := ⟨ok.begun none, fun k => (ok.tile k).idle (by rw [none]; rfl)⟩
  tilesOnce e there := by
    have once := ok.once e there
    cases body : e.cue.body <;> rw [body] at once <;> exact once

theorem Tile.Calm.orderly {now lmax : Nat} {adopted : Bool} {t t' : Tile} (h : t.Calm t')
    (ok : t.Orderly now lmax adopted) : t'.Orderly now lmax adopted := by
  obtain ⟨places, ordered, ahead, latency, idle⟩ := ok
  refine ⟨by rw [h.switches]; exact places, by rw [h.switches]; exact ordered, by rw [h.switches]; exact ahead,
    fun n known => latency n (h.latency known), fun none => ?_⟩
  rw [Bool.eq_false_iff]
  intro carries
  rw [(h.carries carries).1] at idle
  cases idle none

/-! ## Steps that keep it -/

/-- A step that keeps the number of tile columns and the invariant of their lists. -/
structure ListsKept (s t : State) : Prop where
  length : t.tiles.length = s.tiles.length
  ok : ListsOk s → ListsOk t

theorem ListsKept.refl (s : State) : ListsKept s s := ⟨rfl, id⟩

theorem ListsKept.trans {s t u : State} (h : ListsKept s t) (g : ListsKept t u) : ListsKept s u :=
  ⟨g.length.trans h.length, fun ok => g.ok (h.ok ok)⟩

theorem listsKept_foldl {α : Type} {f : State → α → State} (h : ∀ s x, ListsKept s (f s x)) (l : List α) (s : State) :
    ListsKept s (l.foldl f s) := by
  induction l generalizing s with
  | nil => exact .refl s
  | cons x rest ih => exact (h s x).trans (ih _)

/-- The entries of a queue are of cues that were in it. -/
def CuesFrom (s t : State) : Prop := ∀ x ∈ t.scheduler.queue, ∃ e ∈ s.scheduler.queue, x.cue = e.cue

theorem CuesFrom.trans {s t u : State} (h : CuesFrom s t) (g : CuesFrom t u) : CuesFrom s u := by
  intro x there
  obtain ⟨y, here, same⟩ := g x there
  obtain ⟨z, first, same'⟩ := h y here
  exact ⟨z, first, same.trans same'⟩

theorem CuesFrom.of_queue {s t : State} (h : t.scheduler.queue = s.scheduler.queue) : CuesFrom s t :=
  fun x there => ⟨x, h ▸ there, rfl⟩

theorem QueueRuns.cuesFrom {stay : Entry → Prop} {s t : State} (h : QueueRuns stay s t) : CuesFrom s t := by
  intro x there
  obtain ⟨e, here, age⟩ := h.mem there
  exact ⟨e, here, age.cue⟩

theorem cuesFrom_mapQueue {f : Entry → Entry} (same : ∀ e, (f e).cue = e.cue) (s : State) :
    CuesFrom s (mapQueue f s) := by
  intro x there
  obtain ⟨e, here, rfl⟩ := List.mem_map.1 there
  exact ⟨e, here, same e⟩

theorem listsKept_of_calm {s t : State} (calm : TilesCalm s t) (cues : CuesFrom s t) (profile : t.profile = s.profile)
    (running : t.ftg.running = s.ftg.running) (begun : t.ftg.begun = s.ftg.begun) (now : t.now = s.now) :
    ListsKept s t := by
  have prof : t.prof = s.prof := by rw [State.prof, profile, State.prof]
  refine ⟨calm.length, fun ok => ⟨fun k => ?_, ?_, fun x there => ?_, ?_, by rw [calm.length]; exact ok.size⟩⟩
  · rw [now, prof, profile]
    exact (calm.tile k).orderly (ok.tile k)
  · rw [profile, begun]
    exact ok.begun
  · obtain ⟨e, here, same⟩ := cues x there
    rw [same]
    exact ok.once e here
  · rw [profile, running]
    exact ok.running

section
variable {ps : List Part} {s t : State}

theorem OnlyIn.listsKept_of_calm (h : OnlyIn ps s t) (calm : TilesCalm s t) (hp : Part.profile ∉ ps := by decide)
    (hf : Part.ftg ∉ ps := by decide) (hs : Part.scheduler ∉ ps := by decide) : ListsKept s t := by
  have ftg := h.ftg hf
  exact Machine.listsKept_of_calm calm (.of_queue (by rw [h.scheduler hs])) (h.profile hp) (by rw [ftg]) (by rw [ftg])
    (h.now hf)

theorem OnlyIn.listsKept (h : OnlyIn ps s t) (hp : Part.profile ∉ ps := by decide) (hf : Part.ftg ∉ ps := by decide)
    (hs : Part.scheduler ∉ ps := by decide) (ht : Part.tiles ∉ ps := by decide) : ListsKept s t :=
  h.listsKept_of_calm (h.tilesCalm ht) hp hf hs

theorem OnlyIn.listsKept_of_cues (h : OnlyIn ps s t) (cues : CuesFrom s t) (hp : Part.profile ∉ ps := by decide)
    (hf : Part.ftg ∉ ps := by decide) (ht : Part.tiles ∉ ps := by decide) : ListsKept s t := by
  have ftg := h.ftg hf
  exact Machine.listsKept_of_calm (h.tilesCalm ht) cues (h.profile hp) (by rw [ftg]) (by rw [ftg]) (h.now hf)

end

/-! ## Switches placed (R86, R87) -/

theorem length_insertSwitch (sw : Switch) (l : List Switch) : (insertSwitch sw l).length = l.length + 1 := by
  induction l with
  | nil => rfl
  | cons x rest ih =>
    rw [insertSwitch]
    split
    · rw [List.length_cons, ih, List.length_cons]
    · rfl

theorem pairwise_insertSwitch {l : List Switch} (h : l.Pairwise (fun x y => x.frame ≤ y.frame)) (sw : Switch) :
    (insertSwitch sw l).Pairwise (fun x y => x.frame ≤ y.frame) := by
  induction l with
  | nil => exact List.pairwise_singleton _ _
  | cons x rest ih =>
    obtain ⟨first, later⟩ := List.pairwise_cons.1 h
    rw [insertSwitch]
    split
    · next before =>
      refine List.pairwise_cons.2 ⟨fun y there => ?_, ih later⟩
      rcases (mem_insertSwitch _ _ _).1 there with rfl | there
      · exact before
      · exact first y there
    · next after =>
      refine List.pairwise_cons.2 ⟨fun y there => ?_, h⟩
      have below : sw.frame < x.frame := Nat.lt_of_not_le after
      rcases List.mem_cons.1 there with rfl | there
      · exact below.le
      · exact below.le.trans (first y there)

/-- A switch of visible frame now + H lies ahead of the present frame. -/
theorem Tile.Orderly.placed {p : Profile} {now : Nat} {adopted : Bool} {t : Tile} (ok : t.Orderly now p.lmax adopted)
    (room : t.switches.length < 16) (body : SwitchBody) :
    (t.placed (now + (p.lmax + 1)) body p).Orderly now p.lmax adopted := by
  refine ⟨?_, pairwise_insertSwitch ok.ordered _, fun sw there => ?_, ok.latency, ok.idle⟩
  · show (insertSwitch _ _).length ≤ 16
    rw [length_insertSwitch]
    omega
  · rcases (mem_insertSwitch _ _ _).1 there with rfl | there
    · show now < now + (p.lmax + 1) - t.link.latency.getD p.lmax
      have small : t.link.latency.getD p.lmax ≤ p.lmax := by
        cases known : t.link.latency with
        | none => exact le_rfl
        | some n => exact ok.latency n known
      omega
    · exact ok.ahead sw there

theorem placeSwitch_tile_self {k : Nat} (visible : Nat) (body : SwitchBody) {s : State} (there : k < s.tiles.length) :
    (placeSwitch k visible body s).tile k = (s.tile k).placed visible body s.prof := by
  rw [placeSwitch_eq, State.tile_updTile_same _ there]

theorem placeSwitch_ok {k : Nat} (body : SwitchBody) {s : State} (ok : ListsOk s)
    (room : (s.tile k).switches.countP (fun sw => sw.frame != s.now) < 16) :
    ListsOk (placeSwitch k (s.now + s.horizon) body s) := by
  have only := onlyIn_placeSwitch k (s.now + s.horizon) body s
  have kept := otherTilesKept_placeSwitch k (s.now + s.horizon) body s
  have ftg := only.ftg
  refine ⟨fun j => ?_, by rw [only.profile, ftg]; exact ok.begun, by rw [only.scheduler]; exact ok.once,
    by rw [only.profile, ftg]; exact ok.running, by rw [kept.1]; exact ok.size⟩
  rw [only.now, only.prof, only.profile]
  by_cases same : j = k
  · subst same
    by_cases there : j < s.tiles.length
    · rw [placeSwitch_tile_self _ _ there]
      rw [countP_ahead (ok.tile j).ahead] at room
      exact (ok.tile j).placed room body
    · have past : placeSwitch j (s.now + s.horizon) body s = s :=
        State.updTile_of_length_le _ (Nat.le_of_not_lt there)
      rw [past]
      exact ok.tile j
  · rw [kept.2 j same]
    exact ok.tile j

/-- Switches placed in the lists of distinct tiles, each with room. -/
theorem foldl_placeSwitch_ok {α : Type} (on : α → Nat) (body : α → SwitchBody) {l : List α} (once : (l.map on).Nodup)
    {visible : Nat} {s : State} (frame : visible = s.now + s.horizon) (ok : ListsOk s)
    (room : ∀ x ∈ l, (s.tile (on x)).switches.countP (fun sw => sw.frame != s.now) < 16) :
    ListsOk (l.foldl (fun u x => placeSwitch (on x) visible (body x) u) s) := by
  induction l generalizing s with
  | nil => exact ok
  | cons x rest ih =>
    obtain ⟨fresh, once'⟩ := List.nodup_cons.1 once
    have only := onlyIn_placeSwitch (on x) visible (body x) s
    refine ih once' (s := placeSwitch (on x) visible (body x) s) ?_ ?_ fun y there => ?_
    · rw [only.now, only.horizon]
      exact frame
    · rw [frame]
      exact placeSwitch_ok _ ok (room x List.mem_cons_self)
    · have other : on y ≠ on x := fun same => fresh (same ▸ List.mem_map_of_mem there)
      rw [(otherTilesKept_placeSwitch _ _ _ s).2 _ other, only.now]
      exact room y (List.mem_cons_of_mem x there)

theorem listsKept_requestLevel (set : LevelSet) (s : State) : ListsKept s (requestLevel set s) := by
  by_cases room : ∀ k, k < s.prof.tiles → s.pendingRoom k = true
  · rw [requestLevel_placed set room]
    have counted (c : CommitUnit) : ListsKept s (s.setCommit c) := (onlyIn_setCommit s c).listsKept
    refine ⟨forTiles_placeSwitch_length _ _ _ _, fun ok => ?_⟩
    refine foldl_placeSwitch_ok (α := Nat) id (fun _ => .level set) (by rw [List.map_id]; exact List.nodup_range) rfl
      ((counted _).ok ok) fun k there => ?_
    exact (s.pendingRoom_iff k).1 (room k (List.mem_range.1 there))
  · push Not at room
    obtain ⟨k, small, full⟩ := room
    rw [requestLevel_waits set ⟨k, small, by simpa using full⟩]
    exact (onlyIn_setCommit s _).listsKept

/-! ## Cues that commit (R88) -/

theorem cue_mem_of_due {s : State} {v : Eval} (due : s.dueEval = some v) :
    ∃ e ∈ s.scheduler.queue, v.entry.cue = e.cue := by
  exact ⟨v.entry, (mem_evals_entry ((dueEval_eq_some s v).1 due).mem).1, rfl⟩

theorem listsKept_leaveQueue (record : Nat) (s : State) : ListsKept s (leaveQueue record s) :=
  (onlyIn_leaveQueue record s).listsKept_of_cues
    (queueRuns_leaveQueue (stay := fun _ => False) fun _ _ _ _ h => h).cuesFrom

theorem listsKept_commitDue {s : State} {v : Eval} (due : s.dueEval = some v)
    (other : v.entry.cue.body.isScene = false) (place : dueRoom v.entry.cue.body s = true) :
    ListsKept s (commitDue v (s.now + s.horizon) s) := by
  obtain ⟨sets, ftg⟩ := commitDue_ftg v (s.now + s.horizon) s
  have only := onlyIn_commitDue v (s.now + s.horizon) s
  have tiles := commitDue_tiles v (s.now + s.horizon) s
  have cues := (queueRuns_commitDue ((dueEval_eq_some s _).1 due) other).cuesFrom
  have joined : ListsKept s (joinDue v (s.now + s.horizon) s) := (onlyIn_setCommit s _).listsKept
  obtain ⟨-, room⟩ := (dueRoom_iff _ _).1 place
  have now : (commitDue v (s.now + s.horizon) s).now = s.now := (congrArg Ftg.frame ftg).trans rfl
  refine ⟨by rw [tiles, placeDue_length]; exact joined.length, fun ok => ?_⟩
  have lists : ∀ k, ((commitDue v (s.now + s.horizon) s).tile k).Orderly s.now s.prof.lmax s.profile.isSome := by
    intro k
    rw [State.tile_of_tiles tiles]
    cases body : v.entry.cue.body with
    | scene l => rw [body] at other; cases other
    | clock value =>
      have same : (placeDue v.entry.cue (s.now + s.horizon) (joinDue v (s.now + s.horizon) s)).tiles = s.tiles := by
        rw [placeDue_clock_eq body, clockCommitted, (onlyIn_mapQueue _ _).tiles]
        rfl
      rw [State.tile_of_tiles same]
      exact ok.tile k
    | mark tag =>
      rw [placeDue_mark body]
      exact ok.tile k
    | trim l =>
      rw [placeDue_trim body]
      have once : (l.map (·.tile)).Nodup := by
        obtain ⟨e, here, same⟩ := cue_mem_of_due due
        have once := ok.once e here
        rw [← same, body] at once
        exact once
      have placed := foldl_placeSwitch_ok (fun x : TrimEntry => x.tile) (fun x => .trim x.street x.dusk) once
        (s := joinDue v (s.now + s.horizon) s) (visible := s.now + s.horizon) rfl (joined.ok ok) (room l body)
      have switched := foldl_placeSwitch_only (fun x : TrimEntry => x.tile) (fun x => .trim x.street x.dusk)
        (s.now + s.horizon) l (joinDue v (s.now + s.horizon) s)
      have list := placed.tile k
      rw [switched.now, switched.prof, switched.profile] at list
      exact list
  refine ⟨fun k => ?_, by rw [only.profile, ftg]; exact ok.begun, fun x there => ?_,
    by rw [only.profile, ftg]; exact ok.running,
    ?_⟩
  · rw [now, only.prof, only.profile]
    exact lists k
  · obtain ⟨e, here, same⟩ := cues x there
    rw [same]
    exact ok.once e here
  · rw [tiles, placeDue_length]
    exact ok.size

theorem listsKept_move {s t : State} (h : RunMove s t) : ListsKept s t := by
  cases h with
  | attempts => exact (onlyIn_setCommit s _).listsKept
  | commits due _ _ other place => exact listsKept_commitDue due other place

theorem listsKept_attemptRun (n : Nat) (s : State) : ListsKept s (attemptRun n s) :=
  attemptRun_induction .refl .trans listsKept_move n s

theorem listsKept_scenePlaced {s : State} {v : Eval} {a : Attempt} {l : List Assignment}
    (once : ListsOk s → (l.map (·.tile)).Nodup) (room : sceneRoom l s = true) :
    ListsKept s (scenePlaced v (s.now + s.horizon) a l s) := by
  obtain ⟨-, lists⟩ := (sceneRoom_iff l s).1 room
  have entered (c : CommitUnit) : ListsKept s (s.setCommit c) := (onlyIn_setCommit s c).listsKept
  have switched : ListsKept s (sceneSwitched v (s.now + s.horizon) a l s) :=
    ⟨foldl_placeSwitch_length _ _ _ _ _, fun ok =>
      foldl_placeSwitch_ok (fun x : Assignment => x.tile) (v.sceneSwitch a l s) (once ok) rfl ((entered _).ok ok) lists⟩
  have written (u : State) (w : QueueItem) : ListsKept u (enqueue w u) := (onlyIn_enqueue w u).listsKept
  refine (switched.trans (written _ _)).trans ((onlyIn_setScheduler _ _).listsKept_of_cues (.of_queue ?_))
  rfl

theorem listsKept_decideScene {s u : State} {v : Eval} {l : List Assignment} (due : s.dueEval = some v)
    (body : v.entry.cue.body = .scene l) (same : u.scheduler = s.scheduler) (a : Attempt) :
    ListsKept u (decideScene v a l u) := by
  have once (ok : ListsOk u) : (l.map (·.tile)).Nodup := by
    obtain ⟨e, here, cue⟩ := cue_mem_of_due due
    have once := ok.once e (same ▸ here)
    rw [← cue, body] at once
    exact once
  have written (w : State) (x : QueueItem) : ListsKept w (enqueue x w) := (onlyIn_enqueue x w).listsKept
  unfold decideScene
  dsimp only
  split
  · exact (((written u _).trans (written _ _)).trans (listsKept_leaveQueue _ _)).trans (listsKept_attemptRun _ _)
  · split
    · split
      · next room =>
        rw [commitScene_eq]
        exact ((listsKept_scenePlaced once room).trans (listsKept_leaveQueue _ _)).trans (listsKept_attemptRun _ _)
      · exact .refl u
    · split
      · refine (onlyIn_chargeSlack _ u).listsKept_of_cues (cuesFrom_mapQueue (fun e => ?_) u)
        split <;> rfl
      · exact ((written u _).trans (listsKept_leaveQueue _ _)).trans (listsKept_attemptRun _ _)

theorem listsKept_commitDecision (s : State) : ListsKept s (commitDecision s) := by
  have ended : ListsKept s (endAttempt s) := (onlyIn_endAttempt s).listsKept
  unfold commitDecision
  split
  · exact .refl s
  · split
    · dsimp only
      split
      · exact ended
      · next v due =>
        split
        · next l body =>
          split
          · exact ended.trans (listsKept_decideScene due body (onlyIn_endAttempt s).scheduler _)
          · exact ended
        all_goals exact ended
    · exact .refl s

/-! ## Frame starts (R101) -/

theorem cuesFrom_depart (pick : Entry → Bool) (why : Departure) (s : State) : CuesFrom s (depart pick why s) := by
  intro x there
  obtain ⟨e, here, cue, -⟩ := depart_left pick why s x there
  exact ⟨e, here, cue⟩

theorem cuesFrom_frameScanned (s : State) : CuesFrom s (frameScanned s) := by
  have begun : CuesFrom s (beginFrame s) :=
    (CuesFrom.of_queue (by rw [frameAdvanced_scheduler])).trans (queueRuns_beginFrame s).cuesFrom
  have fixed (u : State) : CuesFrom u (fixTargets u) := (queueRuns_fixTargets (stay := fun _ => False) u).cuesFrom
  have scanned (u : State) : CuesFrom u (scanAtFrameStart u) :=
    .of_queue (by rw [(onlyIn_scanAtFrameStart u).scheduler])
  exact ((begun.trans (cuesFrom_depart _ _ _)).trans (fixed _)).trans (scanned _)

theorem Tile.linked_calm (p : Profile) (n k : Nat) (t : Tile) : t.Calm (t.linked p n k) := by
  unfold Tile.linked
  split
  · exact .refl t
  · split
    · exact .of_link rfl rfl rfl
    · exact ⟨rfl, Link.atFrameStart_carries⟩

theorem frameScanned_ftg (s : State) : (frameScanned s).ftg = s.ftg.advance s.prof.rate := by
  have links := onlyIn_linksAtFrameStart s
  have advanced : (advanceFtg (linksAtFrameStart s)).ftg = s.ftg.advance s.prof.rate := by
    rw [advanceFtg, State.setFtg_ftg, State.prof, links.ftg, links.profile, State.prof]
  rw [frameScanned, (onlyIn_scanAtFrameStart _).ftg, (onlyIn_scheduleAtFrameStart _).ftg, beginFrame,
    (onlyIn_receiveWaiting _).ftg, (onlyIn_endAttempt _).ftg, advanced]

/-- A frame start takes the entries of its frame out of every list. -/
theorem listsKept_frameScanned (s : State) : ListsKept s (frameScanned s) := by
  refine ⟨frameScanned_length s, fun ok => ?_⟩
  have now := frameScanned_now s
  have only := onlyIn_frameScanned s
  have cues := cuesFrom_frameScanned s
  obtain ⟨sets, ftg⟩ := Ftg.advance_rest s.prof.rate s.ftg
  rw [← frameScanned_ftg] at ftg
  have length := frameScanned_length s
  have scanned (k : Nat) : ((frameScanned s).tile k).Orderly (s.now + 1) s.prof.lmax s.profile.isSome := by
    by_cases there : k < s.tiles.length
    · have column := scannedTile_frameScanned (lt_of_lt_of_le there ok.size) there
      generalize (frameScanned s).tile k = x at *
      obtain ⟨places, ordered, ahead, latency, idle⟩ := ok.tile k
      have calm := (s.tile k).linked_calm s.prof s.now k
      have sub := column.switches.sublist
      have sub' := sub.trans List.filter_sublist
      refine ⟨sub'.length_le.trans places, ordered.sublist sub', fun sw here => ?_, fun n known => ?_, fun none => ?_⟩
      · obtain ⟨before, later⟩ := List.mem_filter.1 (sub.subset here)
        have := ahead sw before
        rw [bne_iff_ne] at later
        omega
      · rw [column.link] at known
        exact latency n (calm.latency known)
      · rw [Bool.eq_false_iff, column.link]
        intro carries
        have before := (calm.carries carries).1
        rw [idle none] at before
        cases before
    · rw [State.tile_of_length_le (by rw [length]; exact Nat.le_of_not_lt there)]
      have := ok.tile k
      rw [State.tile_of_length_le (Nat.le_of_not_lt there)] at this
      exact ⟨Nat.zero_le _, List.Pairwise.nil, fun _ h => (nomatch h), this.latency, this.idle⟩
  generalize frameScanned s = f at *
  refine ⟨fun k => ?_, ?_, fun x there => ?_, ?_, by rw [length]; exact ok.size⟩
  · rw [now, only.prof, only.profile]
    exact scanned k
  · rw [only.profile, ftg]
    exact ok.begun
  · obtain ⟨e, here, same⟩ := cues x there
    rw [same]
    exact ok.once e here
  · rw [only.profile, ftg]
    exact ok.running

theorem listsKept_wholeFrameStart (s : State) : ListsKept s (wholeFrameStart s) := by
  have marked (u : State) : ListsKept u (markAttemptable u) := by
    refine (onlyIn_mapQueue _ u).listsKept_of_cues (cuesFrom_mapQueue (fun e => ?_) u)
    rfl
  have retried (u : State) : ListsKept u (retryLevelRequest u) := by
    unfold retryLevelRequest
    split
    · exact .refl u
    · exact listsKept_requestLevel _ u
  have prepared (u : State) : ListsKept u (prepareEngines u) :=
    (onlyIn_prepareEngines u).listsKept_of_calm (tilesCalm_prepareEngines u)
  have refreshed : ListsKept s (untilRefresh s) := by
    rw [untilRefresh_eq]
    exact ((((listsKept_frameScanned s).trans (onlyIn_frameReleased s).listsKept).trans
      (onlyIn_completeStop _).listsKept).trans (retried _)).trans (prepared _)
  rw [wholeFrameStart_eq, frameRun]
  exact (((refreshed.trans (onlyIn_takeRefresh _).listsKept).trans (marked _)).trans (listsKept_attemptRun _ _)).trans
    (onlyIn_pollLink _).listsKept

end Sys2Proof.Machine
end

section
/-! The pending switch lists over every command (R83, R87). -/

set_option Elab.async false

namespace Sys2Proof.Machine

theorem OnlyIn.cuesFrom {ps : List Part} {s t : State} (h : OnlyIn ps s t) (hs : Part.scheduler ∉ ps := by decide) :
    CuesFrom s t := .of_queue (by rw [h.scheduler hs])

/-- A step of a command that leaves the control alone keeps the lists when it takes no switch and accepts no cue. -/
theorem listsKept_of_steady {c : Instr} {s t : State} (other : setsControl c = false) (ran : exec c s = .next t)
    (calm : TilesCalm s t) (cues : CuesFrom s t) : ListsKept s t := by
  have steady := steady_exec other ran
  exact listsKept_of_calm calm cues steady.profile steady.running steady.begun steady.now

/-! ## Events (R67, R70) -/

theorem cuesFrom_resolveWait (record : Nat) (s : State) : CuesFrom s (resolveWait record s) := by
  refine cuesFrom_mapQueue (fun e => ?_) s
  split <;> rfl

theorem cuesFrom_triggerEvent (s : State) : CuesFrom s (triggerEvent s) := by
  unfold triggerEvent
  split
  · exact .of_queue rfl
  · split
    · exact cuesFrom_resolveWait _ s
    · split
      · split
        · exact .of_queue rfl
        · exact .of_queue rfl
      · exact .of_queue rfl

theorem cuesFrom_acceptEvent (i : EventInput) (s : State) : CuesFrom s (acceptEvent i s) := by
  cases i with
  | trigger => exact cuesFrom_triggerEvent s
  | pulse =>
    have pulse : CuesFrom s (pulseEvent s) := by
      unfold pulseEvent
      split
      · exact .of_queue rfl
      · split
        · exact cuesFrom_resolveWait _ s
        · exact .of_queue rfl
    exact pulse.trans (onlyIn_pendAlignment _).cuesFrom

theorem cuesFrom_inputActive (i : EventInput) (s : State) : CuesFrom s (inputActive i s) := by
  unfold inputActive
  split
  · exact .of_queue rfl
  · dsimp only
    split
    · unfold qualify
      split
      · exact ((onlyIn_setPins s _).cuesFrom.trans (onlyIn_setFilter i _ _).cuesFrom).trans (cuesFrom_acceptEvent i _)
      · exact (onlyIn_setPins s _).cuesFrom.trans (onlyIn_setFilter i _ _).cuesFrom
    · exact (onlyIn_setPins s _).cuesFrom

theorem cuesFrom_widthReached (i : EventInput) (s : State) : CuesFrom s (widthReached i s) := by
  unfold widthReached
  split
  · split
    · exact (onlyIn_setFilter i _ s).cuesFrom.trans (cuesFrom_acceptEvent i _)
    · exact .of_queue rfl
  · exact .of_queue rfl
  · exact .of_queue rfl

/-! ## Records accepted (R39, R40) -/

/-- Elements that pass the checks of R39 name their tiles once, and none that was seen before. -/
theorem elementFault_once {tiles i : Nat} {seen : List Nat} {l : List (Nat × Bool)}
    (good : elementFault tiles i seen l = none) :
    (l.map Prod.fst).Nodup ∧ ∀ k ∈ l.map Prod.fst, k ∉ seen := by
  induction l generalizing i seen with
  | nil => exact ⟨List.nodup_nil, fun _ h => (nomatch h)⟩
  | cons x rest ih =>
    obtain ⟨tile, empty⟩ := x
    unfold elementFault at good
    split_ifs at good with _ fresh _
    obtain ⟨once, unseen⟩ := ih good
    refine ⟨List.nodup_cons.2 ⟨fun there => unseen tile there List.mem_cons_self, once⟩, fun k there => ?_⟩
    rcases List.mem_cons.1 there with rfl | later
    · exact fun old => fresh (by simpa using old)
    · exact fun old => unseen k later (List.mem_cons_of_mem _ old)

theorem elementFault_of_meaning {p : Profile} {r : List Byte} (good : meaningFault p r = none) :
    elementFault p.tiles 0 [] (elementsOf r) = none := by
  unfold meaningFault at good
  split_ifs at good
  all_goals
    split at good
    · cases good
    · exact good

theorem cueAt_tilesOnce {p : Profile} {r : List Byte} (a : Nat) (good : meaningFault p r = none) :
    (cueAt a r).body.TilesOnce := by
  obtain ⟨once, -⟩ := elementFault_once (elementFault_of_meaning good)
  show (bodyAt r).TilesOnce
  unfold bodyAt
  unfold elementsOf at once
  split
  · next kind =>
    rw [if_pos kind, List.map_map] at once
    show (((elementOffsets r).map (assignmentAt r)).map (·.tile)).Nodup
    rw [List.map_map]
    exact once
  · next kind =>
    rw [kind, if_neg (by decide), if_pos rfl, List.map_map] at once
    show (((elementOffsets r).map (trimEntryAt r)).map (·.tile)).Nodup
    rw [List.map_map]
    exact once
  · trivial
  · trivial

theorem listsKept_appendEntry {c : Cue} (once : c.body.TilesOnce) (s : State) : ListsKept s (appendEntry c s) := by
  refine ⟨rfl, fun ok => ⟨ok.tile, ok.begun, fun e there => ?_, ok.running, ok.size⟩⟩
  rcases List.mem_append.1 there with before | new
  · exact ok.once e before
  · rw [List.mem_singleton.1 new, newEntry_cue]
    exact once

theorem listsKept_judgeRecord (a : Nat) (r : List Byte) (s : State) : ListsKept s (judgeRecord a r s) := by
  have taken : ListsKept s (takeLink a (recordLink r) s) := (onlyIn_takeLink _ _ s).listsKept
  unfold judgeRecord
  split
  · exact (taken.trans (onlyIn_enqueue _ _).listsKept).trans (onlyIn_enqueue _ _).listsKept
  · next good =>
    exact (taken.trans (listsKept_appendEntry (cueAt_tilesOnce a good) _)).trans (onlyIn_enqueue _ _).listsKept

theorem listsKept_recordArrived (s : State) : ListsKept s (recordArrived s) := by
  unfold recordArrived
  split
  · dsimp only
    split
    · split
      · exact (onlyIn_enterHold _ _ _ s).listsKept.trans (onlyIn_enqueue _ _).listsKept
      · split
        · exact (onlyIn_setFollower s _).listsKept
        · exact listsKept_judgeRecord _ _ s
    · exact listsKept_judgeRecord _ _ s
  all_goals exact .refl s

/-! ## Descriptors (R140) -/

theorem listsKept_takeDescriptor (k : Nat) (d : PanelDescriptor) (s : State) : ListsKept s (takeDescriptor k d s) := by
  unfold takeDescriptor
  split
  · next at_work =>
    obtain ⟨running, -, -⟩ := at_work
    split
    · next fits =>
      refine ⟨State.setTile_tiles_length s k _, fun ok => ?_⟩
      have adopted : s.profile.isSome = true := by
        cases none : s.profile with
        | some p => rfl
        | none => rw [ok.running none] at running; cases running
      refine ⟨fun j => ?_, ok.begun, ok.once, ok.running,
        by rw [State.updTile, State.setTile_tiles_length]; exact ok.size⟩
      by_cases same : j = k
      · subst same
        by_cases there : j < s.tiles.length
        · rw [State.tile_updTile_same _ there]
          obtain ⟨places, ordered, ahead, -, -⟩ := ok.tile j
          refine ⟨places, ordered, ahead, fun n known => ?_, fun none => ?_⟩
          · have same : some d.latency = some n := known
            exact Option.some.inj same ▸ (of_decide_eq_true fits).1
          · cases adopted.symm.trans none
        · rw [State.updTile_of_length_le _ (Nat.le_of_not_lt there)]
          exact ok.tile j
      · rw [State.tile_updTile_ne _ same]
        exact ok.tile j
    · refine (onlyIn_updTile k _ s).listsKept_of_calm (tilesCalm_updTile s fun t => ?_) |>.trans
        (onlyIn_raise _ _).listsKept
      exact ⟨rfl, fun h => (nomatch h)⟩
  · exact .refl s

/-! ## The Ambient Unit (R153, R158) -/

theorem listsKept_changeAmbient (s : State) : ListsKept s (changeAmbient s) :=
  ((onlyIn_setAmbient s _).listsKept.trans (onlyIn_raise _ _).listsKept).trans (listsKept_requestLevel _ _)

theorem listsKept_judgeAmbient (average : Nat) (s : State) : ListsKept s (judgeAmbient average s) := by
  unfold judgeAmbient
  split
  · split
    · split
      · exact listsKept_changeAmbient s
      · exact (onlyIn_setAmbient s _).listsKept
    · exact (onlyIn_setAmbient s _).listsKept
  · exact .refl s
  · exact .refl s

theorem listsKept_takeReading (r : Nat) (s : State) : ListsKept s (takeReading r s) := by
  unfold takeReading
  refine ListsKept.trans ?_ (listsKept_judgeAmbient _ _)
  split
  · exact (onlyIn_setAmbient s _).listsKept.trans (onlyIn_raise _ _).listsKept
  · exact (onlyIn_setAmbient s _).listsKept

/-! ## Frame starts (R101) -/

theorem listsKept_frameStart (s : State) : ListsKept s (frameStart s) := by
  cases running : s.ftg.running with
  | false =>
    rw [frameStart_of_stopped running]
    exact .refl s
  | true =>
    cases begun : s.ftg.begun with
    | true =>
      rw [frameStart_of_begun running begun]
      exact ⟨rfl, fun ok => ⟨ok.tile, fun _ => rfl, ok.once, ok.running, ok.size⟩⟩
    | false =>
      rw [frameStart_of_not_begun running begun]
      exact listsKept_wholeFrameStart s

theorem listsKept_markBegun {s : State} (running : s.ftg.running = true) : ListsKept s (markBegun s) := by
  refine ⟨rfl, fun ok => ⟨ok.tile, fun none => ?_, ok.once, ok.running, ok.size⟩⟩
  cases (ok.running none).symm.trans running

theorem listsKept_waitLimitSkip (record : Nat) (s : State) : ListsKept s (waitLimitSkip record s) := by
  unfold waitLimitSkip
  split
  · next taken =>
    obtain ⟨running, -, -⟩ := taken
    obtain ⟨sets, ftg⟩ := wholeFrameStart_ftg s
    obtain ⟨rest, advanced⟩ := Ftg.advance_rest s.prof.rate s.ftg
    have still : (s.ftg.advance s.prof.rate).running = s.ftg.running := (congrArg Ftg.running advanced).trans rfl
    have at_work := (congrArg Ftg.running ftg).trans (still.trans running)
    exact (listsKept_wholeFrameStart s).trans (listsKept_markBegun at_work)
  · exact .refl s

/-! ## Commands -/

theorem listsKept_command {c : Command} {take : State → State} {s : State} (h : ListsKept s (take s)) :
    ListsKept s (command c take s) := by
  cases judged : judge c s with
  | none =>
    rw [command_taken take judged]
    exact h
  | some r =>
    rw [command_refused take judged]
    exact (onlyIn_recordCommand c r s).listsKept

theorem cuesFrom_withdrawn (s : State) : CuesFrom s (withdrawAll (endAttempt (endFollowing s))) :=
  ((onlyIn_endFollowing s).cuesFrom.trans (onlyIn_endAttempt _).cuesFrom).trans (cuesFrom_depart _ _ _)

theorem listsKept_withdrawn (s : State) : ListsKept s (withdrawAll (endAttempt (endFollowing s))) :=
  (onlyIn_withdrawn s).listsKept_of_cues (cuesFrom_withdrawn s)

theorem listsKept_setAnchor (s : State) : ListsKept s (setAnchor s) :=
  (onlyIn_setAnchor s).listsKept_of_cues (.of_queue rfl)

theorem listsKept_takeRedirect (s : State) : ListsKept s (takeRedirect s) :=
  (((onlyIn_recordCommand .redirect .accepted s).listsKept.trans (listsKept_withdrawn _)).trans
    (listsKept_setAnchor _)).trans (onlyIn_followFrom _ _).listsKept

theorem listsKept_takeStart (s : State) : ListsKept s (takeStart s) :=
  (((onlyIn_recordCommand .start .accepted s).listsKept.trans (onlyIn_setWindow _ _).listsKept).trans
    (listsKept_setAnchor _)).trans (onlyIn_followFrom _ _).listsKept

theorem listsKept_takeStopCommand (s : State) : ListsKept s (takeStopCommand s) := by
  have placed (vs : Nat) (u : State) : ListsKept u (stopPlaced vs u) :=
    (onlyIn_stopPlaced vs u).listsKept_of_calm (tilesCalm_stopPlaced vs u)
  have stops (vs : Nat) (u : State) : ListsKept u (u.setCommit { u.commit with stopFrame := some vs }) :=
    (onlyIn_setCommit u _).listsKept
  exact ((((onlyIn_recordCommand .stop .busy s).listsKept.trans (listsKept_withdrawn _)).trans (placed _ _)).trans
    (stops _ _)).trans (onlyIn_setWindow _ _).listsKept

theorem Tile.emptied_orderly {now lmax : Nat} {adopted : Bool} {t : Tile} (ok : t.Orderly now lmax adopted) :
    t.emptied.Orderly now lmax adopted :=
  ⟨Nat.zero_le _, List.Pairwise.nil, fun _ h => (nomatch h), ok.latency, ok.idle⟩

theorem listsKept_takeWallReset (s : State) : ListsKept s (takeWallReset s) := by
  have length : (resetCleared s).tiles.length = s.tiles.length := List.length_map _
  have cleared : ListsKept s (resetCleared s) := by
    refine ⟨length, fun ok => ⟨fun k => ?_, ok.begun, fun _ h => (nomatch h), ok.running, length.le.trans ok.size⟩⟩
    have there : ((resetCleared s).tile k) = (s.tile k).emptied := by
      by_cases there : k < s.tiles.length
      · exact resetCleared_tile there
      · rw [State.tile_of_length_le (by rw [length]; exact Nat.le_of_not_lt there),
          State.tile_of_length_le (Nat.le_of_not_lt there)]
        rfl
    rw [there]
    exact Tile.emptied_orderly (ok.tile k)
  rw [takeWallReset_requests]
  exact cleared.trans (listsKept_requestLevel _ _)

/-! ## Frame 0 (R1, R165) -/

theorem Link.latency_of_quiet {l : Link} (quiet : l.state.carries = false) : l.latency = none := by
  rw [Link.latency, quiet]
  rfl

/-- The Frame Timing Generator of a part that begins running. -/
def begunFtg (s : State) : Ftg :=
  { s.ftg with
    running := true, frame := 0, begun := false, trigger := initialFilter s.pins.trigger,
    pulse := initialFilter s.pins.pulse }

theorem listsKept_beginRunning (s : State) : ListsKept (s.setFtg (begunFtg s)) (beginRunning s) := by
  have linked (u : State) : ListsKept u (forTiles s.prof.tiles beginLink u) :=
    (onlyIn_forTiles _ beginLink onlyIn_beginLink _).listsKept_of_calm (tilesCalm_forTiles tilesCalm_beginLink u)
  have polling (u : State) : ListsKept u (beginPolling u) := by
    unfold beginPolling
    split
    · exact (onlyIn_setAmbient u _).listsKept.trans (listsKept_changeAmbient _)
    · exact (onlyIn_setAmbient u _).listsKept
    · exact (onlyIn_setAmbient u _).listsKept
  have prepared (u : State) : ListsKept u (prepareEngines u) :=
    (onlyIn_prepareEngines u).listsKept_of_calm (tilesCalm_prepareEngines u)
  exact (((linked _).trans (polling _)).trans (onlyIn_takeRefresh _).listsKept).trans (prepared _)

/-- A part without a profile has no tile connected, so when it adopts one no latency is known. -/
theorem listsKept_adopt (p : Profile) (s : State) :
    (adopt p s).tiles.length = s.tiles.length ∧ (s.profile = none → ListsOk s → ListsOk (adopt p s)) := by
  have kept := listsKept_beginRunning ((s.setProfile (some p)).setWindow { s.window with wall := .standby })
  refine ⟨kept.length, fun none ok => kept.ok ?_⟩
  refine ⟨fun k => ?_, fun h => (nomatch h), ok.once, fun h => (nomatch h), ok.size⟩
  obtain ⟨places, ordered, ahead, -, idle⟩ := ok.tile k
  refine ⟨places, ordered, fun sw there => Nat.zero_lt_of_lt (ahead sw there), fun n known => ?_, fun h => (nomatch h)⟩
  have quiet := Link.latency_of_quiet (idle (by rw [none]; rfl))
  cases quiet.symm.trans known

theorem listsKept_loadingEnd (unread : List Nat) (s : State) : (loadingEnd unread s).tiles.length = s.tiles.length ∧
    (ControlInv s → ListsOk s → ListsOk (loadingEnd unread s)) := by
  unfold loadingEnd
  split
  · next loading =>
    obtain ⟨wall, -⟩ := loading
    have read (x : Store) : ListsKept s (s.setStore x) := (onlyIn_setStore s x).listsKept
    have loaded (u : State) : ListsKept u (loadTrims (readImage s.store.eeprom unread) u) :=
      (onlyIn_loadTrims _ u).listsKept_of_calm (tilesCalm_loadTrims _ u)
    dsimp only
    split
    · next p valid =>
      generalize hu : s.setStore _ = u
      have kept : ListsKept s u := by
        rw [← hu]
        exact read _
      have profile : u.profile = s.profile := by rw [← hu]; rfl
      obtain ⟨length, ok⟩ := listsKept_adopt p (loadTrims (readImage s.store.eeprom unread) u)
      refine ⟨length.trans ((loaded u).length.trans kept.length), fun control before =>
        ok ?_ ((loaded u).ok (kept.ok before))⟩
      exact profile.trans (control.unadopted (by rw [wall]; exact not_shows_loading)).1
    · exact ⟨rfl, fun _ before => (onlyIn_setWindow _ _).listsKept.ok ((read _).ok before)⟩
  · exact ⟨rfl, fun _ => id⟩

theorem listsKept_adoptRecord (p : Profile) (persist : Bool) (s : State) :
    (adoptRecord p persist s).tiles.length = s.tiles.length ∧
    (s.profile = none → ListsOk s → ListsOk (adoptRecord p persist s)) := by
  have recorded : ListsKept (adopt p s) (adoptRecord p persist s) := by
    unfold adoptRecord
    dsimp only
    split
    · exact (onlyIn_placeJob _ _ _).listsKept
    · exact (onlyIn_setWindow _ _).listsKept
  obtain ⟨length, ok⟩ := listsKept_adopt p s
  exact ⟨recorded.length.trans length, fun none before => recorded.ok (ok none before)⟩

theorem listsKept_profileReadDone (s : State) : (profileReadDone s).tiles.length = s.tiles.length ∧
    (ControlInv s → ListsOk s → ListsOk (profileReadDone s)) := by
  unfold profileReadDone
  split
  · next a work =>
    split
    · have ended : ListsKept s (s.setWindow { s.window with adoption := none }) := (onlyIn_setWindow s _).listsKept
      dsimp only
      split
      · next p valid =>
        obtain ⟨length, ok⟩ := listsKept_adoptRecord p a.persist (s.setWindow { s.window with adoption := none })
        refine ⟨length, fun control before => ok ?_ (ended.ok before)⟩
        have waits := control.adopting (by rw [work]; rfl)
        exact (control.unadopted (by rw [waits]; exact not_shows_awaitProfile)).1
      · exact ⟨rfl, fun _ before => ((onlyIn_setWindow _ _).listsKept).ok (ended.ok before)⟩
    · exact ⟨rfl, fun _ => id⟩
    · exact ⟨rfl, fun _ => id⟩
  · exact ⟨rfl, fun _ => id⟩

/-! ## Every command -/

/-- Every command keeps the number of tile columns, and with the control invariant that of their lists. -/
theorem listsKept_exec {c : Instr} {s t : State} (size : s.tiles.length = Config.tileCount) (ran : exec c s = .next t) :
    t.tiles.length = Config.tileCount ∧ (ControlInv s → ListsOk s → ListsOk t) := by
  have kept (h : ListsKept s t) : t.tiles.length = Config.tileCount ∧ (ControlInv s → ListsOk s → ListsOk t) :=
    ⟨h.length.trans size, fun _ => h.ok⟩
  have ends {u : State} (same : exec c s = .next u) (h : ListsKept s u) :
      t.tiles.length = Config.tileCount ∧ (ControlInv s → ListsOk s → ListsOk t) :=
    kept (Host.Outcome.next.inj (same.symm.trans ran) ▸ h)
  have told {u : State} (same : exec c s = .next (dryEdge s u)) (h : ListsKept s u) :
      t.tiles.length = Config.tileCount ∧ (ControlInv s → ListsOk s → ListsOk t) :=
    ends same (h.trans (onlyIn_dryEdge_after s u).listsKept)
  have other (steady : setsControl c = false) (ht : Part.tiles ∉ parts c) (hs : Part.scheduler ∉ parts c) :=
    kept (listsKept_of_steady steady ran ((onlyIn_exec ran).tilesCalm ht) ((onlyIn_exec ran).cuesFrom hs))
  have calm {u : State} (steady : setsControl c = false) (same : exec c s = .next u) (h : TilesCalm s u)
      (hs : Part.scheduler ∉ parts c) := kept (listsKept_of_steady steady ran
        (Host.Outcome.next.inj (same.symm.trans ran) ▸ h) ((onlyIn_exec ran).cuesFrom hs))
  have cues {u : State} (steady : setsControl c = false) (same : exec c s = .next u) (h : CuesFrom s u)
      (ht : Part.tiles ∉ parts c) := kept (listsKept_of_steady steady ran ((onlyIn_exec ran).tilesCalm ht)
        (Host.Outcome.next.inj (same.symm.trans ran) ▸ h))
  cases c with
  | deviceReset cut =>
    cases ran
    have reset := listsOk_of_inv controlInv_reset depthInv_reset switchInv_reset
    exact ⟨rfl, fun _ _ => ⟨reset.tile, reset.begun, reset.once, reset.running, reset.size⟩⟩
  | loadingEnd unread =>
    cases ran
    obtain ⟨length, ok⟩ := listsKept_loadingEnd unread s
    exact ⟨length.trans size, ok⟩
  | profileRecordReadDone =>
    cases ran
    obtain ⟨length, ok⟩ := listsKept_profileReadDone s
    exact ⟨length.trans size, ok⟩
  | start => exact ends rfl (listsKept_command (listsKept_takeStart s))
  | redirect => exact ends rfl (listsKept_command (listsKept_takeRedirect s))
  | stop => exact ends rfl (listsKept_command (listsKept_takeStopCommand s))
  | wallReset => exact ends rfl (listsKept_command (listsKept_takeWallReset s))
  | adoptProfile persist =>
    exact kept ((onlyIn_exec ran).listsKept (by simp [parts]) (by simp [parts]) (by simp [parts]) (by simp [parts]))
  | grantDecision => exact calm rfl rfl (tilesCalm_grantDecision s) (by simp [parts])
  | frameStart => exact told rfl (listsKept_frameStart s)
  | waitLimitSkip record => exact told rfl (listsKept_waitLimitSkip record s)
  | commitDecision => exact told rfl (listsKept_commitDecision s)
  | recordWordsArrived => exact told rfl (listsKept_recordArrived s)
  | departingWriteReceived =>
    exact told rfl ((onlyIn_receiveDeparting s).listsKept_of_cues (queueRuns_receiveDeparting s).cuesFrom)
  | graceExpired k | joinComplete k | lostTimeout k | absentIdentify k | trainingTimeout k =>
    exact calm rfl rfl (tilesCalm_linkAhead _ k s) (by simp [parts])
  | descriptor k d => exact ends rfl (listsKept_takeDescriptor k d s)
  | linkTakesPixel k => exact calm rfl rfl (tilesCalm_linkTakesPixel k s) (by simp [parts])
  | echo k tag => exact calm rfl rfl (tilesCalm_takeEcho k tag s) (by simp [parts])
  | burstArrival k words => exact calm rfl rfl (tilesCalm_burstArrives k words s) (by simp [parts])
  | eventInputActive i => exact cues rfl rfl (cuesFrom_inputActive i s) (by simp [parts])
  | filterWidthReached i => exact cues rfl rfl (cuesFrom_widthReached i s) (by simp [parts])
  | sensorReading x y =>
    refine ends rfl ?_
    split
    · exact listsKept_takeReading _ s
    · exact .refl s
  | _ => exact other (by simp [setsControl]) (by simp [parts]) (by simp [parts])

end Sys2Proof.Machine
end

section
/-! The depths of the tables (R83, R91, R130). -/

set_option Elab.async false

namespace Sys2Proof.Machine

/-! ## The showing table and the due list -/

/-- A step that keeps the showing table and the due list within their depths. -/
structure TablesKept (s t : State) : Prop where
  showing : s.commit.showing.length ≤ Config.showingDepth → t.commit.showing.length ≤ Config.showingDepth
  due : s.commit.due.length ≤ Config.dueDepth → t.commit.due.length ≤ Config.dueDepth

theorem TablesKept.trans {s t u : State} (h : TablesKept s t) (g : TablesKept t u) : TablesKept s u :=
  ⟨fun fits => g.showing (h.showing fits), fun fits => g.due (h.due fits)⟩

theorem TablesKept.of_le {s t : State} (showing : t.commit.showing.length ≤ s.commit.showing.length)
    (due : t.commit.due.length ≤ s.commit.due.length) : TablesKept s t :=
  ⟨showing.trans, due.trans⟩

theorem TablesKept.refl (s : State) : TablesKept s s := .of_le le_rfl le_rfl

theorem TablesKept.of_eq {s t : State} (showing : t.commit.showing = s.commit.showing)
    (due : t.commit.due = s.commit.due) :
    TablesKept s t := .of_le (by rw [showing]) (by rw [due])

theorem OnlyIn.tablesKept {ps : List Part} {s t : State} (h : OnlyIn ps s t) (hc : Part.commit ∉ ps := by decide) :
    TablesKept s t := .of_eq (by rw [h.commit hc]) (by rw [h.commit hc])

theorem LevelOnly.tablesKept {s t : State} (h : LevelOnly s t) : TablesKept s t :=
  .of_eq ((congrArg CommitUnit.showing h).trans rfl) ((congrArg CommitUnit.due h).trans rfl)

theorem tablesKept_command {c : Command} {take : State → State} {s : State} (h : TablesKept s (take s)) :
    TablesKept s (command c take s) := by
  cases judged : judge c s with
  | none =>
    rw [command_taken take judged]
    exact h
  | some r =>
    rw [command_refused take judged]
    exact (onlyIn_recordCommand c r s).tablesKept

/-! ## Attempts and commits -/

theorem tablesKept_move {s t : State} (h : RunMove s t) : TablesKept s t := by
  cases h with
  | attempts => exact .of_eq rfl rfl
  | commits due _ _ other place =>
    obtain ⟨room, -⟩ := (dueRoom_iff _ _).1 place
    refine ⟨fun fits => ?_, fun _ => ?_⟩
    · rw [commitDue_commit]
      exact fits
    · rw [commitDue_commit]
      show (s.commit.due ++ [_]).length ≤ 16
      rw [List.length_append]
      exact room

theorem tablesKept_attemptRun (n : Nat) (s : State) : TablesKept s (attemptRun n s) :=
  attemptRun_induction .refl .trans tablesKept_move n s

theorem tablesKept_decideScene (v : Eval) (a : Attempt) (l : List Assignment) (s : State) :
    TablesKept s (decideScene v a l s) := by
  have ran {u : State} (h : TablesKept s u) (n : Nat) : TablesKept s (attemptRun n u) :=
    h.trans (tablesKept_attemptRun n u)
  unfold decideScene
  dsimp only
  split
  · exact ran (onlyIn_refusePlate _ _ _ s).tablesKept _
  · split
    · split
      · next room =>
        obtain ⟨open24, -⟩ := (sceneRoom_iff l s).1 room
        refine ran ?_ _
        rw [commitScene_eq]
        refine TablesKept.trans ⟨fun _ => ?_, fun fits => ?_⟩ (onlyIn_leaveQueue _ _).tablesKept
        · rw [scenePlaced_commit]
          show (s.commit.showing ++ [_]).length ≤ 24
          rw [List.length_append]
          exact open24
        · rw [scenePlaced_commit]
          exact fits
      · exact .refl s
    · split
      · exact (onlyIn_chargeSlack _ s).tablesKept
      · exact ran (onlyIn_skipNotReady v s).tablesKept _

theorem tablesKept_commitDecision (s : State) : TablesKept s (commitDecision s) := by
  have ended : TablesKept s (endAttempt s) := .of_eq rfl rfl
  unfold commitDecision
  split
  · exact .refl s
  · split
    · dsimp only
      split
      · exact ended
      · split
        · split
          · exact ended.trans (tablesKept_decideScene _ _ _ _)
          · exact ended
        all_goals exact ended
    · exact .refl s

theorem tablesKept_grantDecision (s : State) : TablesKept s (grantDecision s) := by
  have plate (index : Nat) : TablesKept s (grantPlate index s) := by
    unfold grantPlate
    split
    · exact .refl s
    · exact .of_eq rfl rfl
  have place4 : TablesKept s (grantPlace4 s) := by
    unfold grantPlace4
    split
    · exact plate _
    · split
      · exact (onlyIn_grantFollower s).tablesKept
      · split
        · exact (onlyIn_grantProfile s).tablesKept
        · exact (onlyIn_grantOther s).tablesKept
  unfold grantDecision
  split
  · exact (onlyIn_grantEngine _ _ s).tablesKept
  · split
    · exact (onlyIn_grantHost s).tablesKept
    · split
      · exact (onlyIn_grantReport _ s).tablesKept
      · exact place4

/-! ## Events (R70) -/

theorem tablesKept_extendScene (l : LastScene) (s : State) : TablesKept s (extendScene l s) :=
  .of_le (List.length_map _).le le_rfl

theorem tablesKept_acceptEvent (i : EventInput) (s : State) : TablesKept s (acceptEvent i s) := by
  cases i with
  | trigger =>
    show TablesKept s (triggerEvent s)
    unfold triggerEvent
    split
    · exact .refl s
    · split
      · exact (onlyIn_resolveWait _ s).tablesKept
      · split
        · split
          · exact tablesKept_extendScene _ s
          · exact .refl s
        · exact .refl s
  | pulse => exact (onlyIn_pulseEvent s).tablesKept.trans (onlyIn_pendAlignment _).tablesKept

theorem tablesKept_inputActive (i : EventInput) (s : State) : TablesKept s (inputActive i s) := by
  unfold inputActive
  split
  · exact .refl s
  · dsimp only
    split
    · unfold qualify
      split
      · exact ((onlyIn_setPins s _).tablesKept.trans (onlyIn_setFilter i _ _).tablesKept).trans
          (tablesKept_acceptEvent i _)
      · exact (onlyIn_setPins s _).tablesKept.trans (onlyIn_setFilter i _ _).tablesKept
    · exact (onlyIn_setPins s _).tablesKept

theorem tablesKept_widthReached (i : EventInput) (s : State) : TablesKept s (widthReached i s) := by
  unfold widthReached
  split
  · split
    · exact (onlyIn_setFilter i _ s).tablesKept.trans (tablesKept_acceptEvent i _)
    · exact .refl s
  · exact .refl s
  · exact .refl s

/-! ## Frame starts (R90, R92 to R94, R97) -/

theorem tablesKept_foldl {α : Type} {f : State → α → State} (h : ∀ s x, TablesKept s (f s x)) (l : List α) (s : State) :
    TablesKept s (l.foldl f s) := by
  induction l generalizing s with
  | nil => exact .refl s
  | cons x rest ih => exact (h s x).trans (ih _)

/-- Tiles may leave the held sets. -/
theorem tablesKept_mapShowing (f : ShowEntry → ShowEntry) (s : State) :
    TablesKept s (s.setCommit { s.commit with showing := s.commit.showing.map f }) :=
  .of_le (List.length_map _).le le_rfl

theorem tablesKept_scanTile (k : Nat) (s : State) : TablesKept s (scanTile k s) := by
  have switch (u : State) (sw : Switch) : TablesKept u (takeSwitch k u sw) := by
    unfold takeSwitch
    split
    · rw [sceneTaken]
      exact ((onlyIn_updTile k _ u).tablesKept.trans (tablesKept_mapShowing _ _)).trans
        (onlyIn_updTile k _ _).tablesKept
    · exact (onlyIn_updTile k _ u).tablesKept
    · exact (onlyIn_updTile k _ u).tablesKept
  have stop (u : State) : TablesKept u (takeStop k u) := by
    unfold takeStop
    split
    · exact (onlyIn_updTile k _ u).tablesKept.trans (tablesKept_mapShowing _ _)
    · exact .refl u
  exact ((onlyIn_updTile k _ s).tablesKept.trans (tablesKept_foldl switch _ _)).trans (stop _)

theorem tablesKept_frameScanned (s : State) : TablesKept s (frameScanned s) := by
  have due := (congrArg CommitUnit.due
    ((received_beginFrame s).trans (received_scheduleAtFrameStart _)).commit).trans rfl
  have scheduled : TablesKept s (scheduleAtFrameStart (beginFrame s)) := .of_eq (scheduled_showing s) due
  have scanned (u : State) : TablesKept u (scanAtFrameStart u) :=
    (tablesKept_foldl (fun u k => tablesKept_scanTile k u) _ u).trans (onlyIn_setWindow _ _).tablesKept
  exact scheduled.trans (scanned _)

theorem tablesKept_untilRefresh (s : State) : TablesKept s (untilRefresh s) := by
  have released : TablesKept (frameScanned s) (frameReleased s) := by
    have commit := frameReleased_commit s
    generalize frameReleased s = r at *
    generalize frameScanned s = u at *
    refine .of_le ?_ ?_
    · rw [commit]
      exact (List.length_filter_le _ _).trans (List.length_map _).le
    · rw [commit]
      exact List.length_filter_le _ _
  obtain ⟨showing, due, -⟩ := untilRefresh_showing s
  exact ((tablesKept_frameScanned s).trans released).trans (.of_eq showing due)

theorem tablesKept_wholeFrameStart (s : State) : TablesKept s (wholeFrameStart s) := by
  have marked (u : State) : TablesKept u (markAttemptable u) := (onlyIn_mapQueue _ u).tablesKept
  rw [wholeFrameStart_eq, frameRun]
  exact ((((tablesKept_untilRefresh s).trans (onlyIn_takeRefresh _).tablesKept).trans (marked _)).trans
    (tablesKept_attemptRun _ _)).trans (onlyIn_pollLink _).tablesKept

theorem tablesKept_frameStart (s : State) : TablesKept s (frameStart s) := by
  cases running : s.ftg.running with
  | false =>
    rw [frameStart_of_stopped running]
    exact .refl s
  | true =>
    cases begun : s.ftg.begun with
    | true =>
      rw [frameStart_of_begun running begun]
      exact (onlyIn_setFtg s _).tablesKept
    | false =>
      rw [frameStart_of_not_begun running begun]
      exact tablesKept_wholeFrameStart s

theorem tablesKept_waitLimitSkip (record : Nat) (s : State) : TablesKept s (waitLimitSkip record s) := by
  unfold waitLimitSkip
  split
  · exact (tablesKept_wholeFrameStart s).trans (onlyIn_setFtg _ _).tablesKept
  · exact .refl s

/-! ## Every command -/

theorem tablesKept_takeWallReset (s : State) : TablesKept s (takeWallReset s) := by
  have cleared : TablesKept s (resetCleared s) := .of_le (Nat.zero_le _) (Nat.zero_le _)
  rw [takeWallReset_requests]
  exact cleared.trans (levelOnly_requestLevel _ _).tablesKept

theorem tablesKept_exec {c : Instr} {s t : State} (ran : exec c s = .next t) : TablesKept s t := by
  have ends {u : State} (same : exec c s = .next u) (h : TablesKept s u) : TablesKept s t :=
    Host.Outcome.next.inj (same.symm.trans ran) ▸ h
  have told {u : State} (same : exec c s = .next (dryEdge s u)) (h : TablesKept s u) : TablesKept s t :=
    ends same (h.trans (onlyIn_dryEdge_after s u).tablesKept)
  have other (commit : Part.commit ∉ parts c) : TablesKept s t := (onlyIn_exec ran).tablesKept commit
  cases c with
  | deviceReset cut => exact ends rfl (.of_le (Nat.zero_le _) (Nat.zero_le _))
  | loadingEnd unread => exact ends rfl (levelOnly_loadingEnd unread s).tablesKept
  | profileRecordReadDone => exact ends rfl (levelOnly_profileReadDone s).tablesKept
  | redirect =>
    have withdrawn (u : State) : TablesKept u (withdrawAll (endAttempt (endFollowing u))) :=
      (TablesKept.of_eq (by rfl) (by rfl)).trans (onlyIn_withdrawAll (endAttempt (endFollowing u))).tablesKept
    exact ends rfl (tablesKept_command ((((onlyIn_recordCommand .redirect .accepted s).tablesKept.trans
      (withdrawn _)).trans (onlyIn_setAnchor _).tablesKept).trans (onlyIn_followFrom _ _).tablesKept))
  | stop =>
    obtain ⟨vs, commit⟩ := takeStopCommand_commit s
    exact ends rfl (tablesKept_command (.of_eq (by rw [commit]) (by rw [commit])))
  | wallReset => exact ends rfl (tablesKept_command (tablesKept_takeWallReset s))
  | grantDecision => exact ends rfl (tablesKept_grantDecision s)
  | frameStart => exact told rfl (tablesKept_frameStart s)
  | waitLimitSkip record => exact told rfl (tablesKept_waitLimitSkip record s)
  | commitDecision => exact told rfl (tablesKept_commitDecision s)
  | handoffWriteReceived =>
    have due : (receiveHandoff s).commit.due = s.commit.due := by
      unfold receiveHandoff
      split
      · rfl
      · split <;> rfl
    exact ends rfl (.of_eq (receiveHandoff_showing s) due)
  | eventInputActive i => exact ends rfl (tablesKept_inputActive i s)
  | filterWidthReached i => exact ends rfl (tablesKept_widthReached i s)
  | sensorReading x y =>
    refine ends rfl ?_
    split
    · exact (levelOnly_takeReading _ s).tablesKept
    · exact .refl s
  | _ => exact other (by simp [parts])

/-! ## The host window port (R130) -/

theorem HostPort.take_fits (a : WindowAccess) {p : HostPort} (fits : p.accesses.length ≤ Config.portDepth) :
    (p.take a).accesses.length ≤ Config.portDepth := by
  unfold HostPort.take
  split
  · next room =>
    obtain ⟨room, -⟩ := room
    show (p.accesses ++ [_]).length ≤ _
    rw [List.length_append]
    exact room
  · exact fits

/-- The oldest access leaves before a waiting one is taken. -/
theorem HostPort.carried_fits (got : List Byte) {rest : List PortAccess} (p : HostPort)
    (room : rest.length < Config.portDepth) : (p.carried got rest).accesses.length ≤ Config.portDepth := by
  unfold HostPort.carried
  dsimp only
  split
  · exact room.le
  · show (rest ++ [_]).length ≤ _
    rw [List.length_append]
    exact room

theorem grantHost_fits {s : State} (fits : s.port.accesses.length ≤ Config.portDepth) :
    (grantHost s).port.accesses.length ≤ Config.portDepth := by
  unfold grantHost
  split
  · exact fits
  · next x rest held =>
    have room : rest.length < Config.portDepth := by
      rw [held] at fits
      exact fits
    split
    · rw [(onlyIn_countCarried _).port]
      exact s.port.carried_fits _ room
    · dsimp only
      split
      · rw [(onlyIn_countCarried _).port]
        exact HostPort.carried_fits _ _ room
      · exact room

theorem grantDecision_fits {s : State} (fits : s.port.accesses.length ≤ Config.portDepth) :
    (grantDecision s).port.accesses.length ≤ Config.portDepth := by
  unfold grantDecision
  split
  · rw [(onlyIn_grantEngine _ _ s).port]
    exact fits
  · split
    · exact grantHost_fits fits
    · split
      · rw [(onlyIn_grantReport _ s).port]
        exact fits
      · rw [(onlyIn_grantPlace4 s).port]
        exact fits

theorem port_exec {c : Instr} {s t : State} (fits : s.port.accesses.length ≤ Config.portDepth)
    (ran : exec c s = .next t) : t.port.accesses.length ≤ Config.portDepth := by
  have other (port : Part.port ∉ parts c) : t.port.accesses.length ≤ Config.portDepth := by
    rw [(onlyIn_exec ran).port port]
    exact fits
  cases c with
  | deviceReset cut =>
    cases ran
    exact Nat.zero_le _
  | grantDecision =>
    cases ran
    exact grantDecision_fits fits
  | hostWindowAccess access =>
    have run : execHostWindowAccess access s = .next t := ran
    unfold execHostWindowAccess at run
    dsimp only at run
    split_ifs at run
    cases run
    exact s.port.take_fits access fits
  | _ => exact other (by simp [parts])

/-! ## The obligation -/

theorem depthInv_exec {c : Instr} {s t : State} (inv : DepthInv s) (ran : exec c s = .next t) : DepthInv t where
  showing := (tablesKept_exec ran).showing inv.showing
  due := (tablesKept_exec ran).due inv.due
  port := port_exec inv.port ran
  tiles := (listsKept_exec inv.tiles ran).1

/-- A step whose command keeps the lists' invariant of a part that meets the others. -/
theorem switchInv_exec {c : Instr} {s t : State} (inv : ControlInv s ∧ DepthInv s ∧ SwitchInv s)
    (ran : exec c s = .next t) : SwitchInv t := by
  obtain ⟨control, depth, lists⟩ := inv
  exact switchInv_of_listsOk ((listsKept_exec depth.tiles ran).2 control (listsOk_of_inv control depth lists))

/-- Settles O8: the depths of every command from `tablesKept_exec`, `port_exec` and `listsKept_exec`, and the pending
lists from `listsKept_exec`. -/
theorem tableDepthsKept : Obligations.TableDepthsKept := by
  refine ⟨fun s t inv ran => ?_, fun s t control depth lists ran => ?_⟩
  · exact step_keeps depthInv_exec (fun inv => ⟨inv.showing, inv.due, inv.port, inv.tiles⟩) inv ran
  · obtain ⟨-, rfl⟩ | ⟨c, rest, -, ran⟩ := step_cases ran
    · exact lists
    · have control' : ControlInv (s.setPending rest) :=
        ⟨control.beat, control.adopted, control.adopting, control.stopping, control.stopBusy⟩
      have depth' : DepthInv (s.setPending rest) := ⟨depth.showing, depth.due, depth.port, depth.tiles⟩
      exact switchInv_exec ⟨control', depth',
        ⟨lists.places, lists.ordered, lists.ahead, lists.latency, lists.idle, lists.tilesOnce⟩⟩ ran

end Sys2Proof.Machine
end

section
/-! The checks of a record (R37, R39, R186). -/

set_option Elab.async false

namespace Sys2Proof.Machine

/-! ## Checks in order -/

section
variable {α : Type}

theorem firstFailing_nil : firstFailing ([] : List (Bool × α)) = none := rfl

theorem firstFailing_cons (b : Bool) (x : α) (l : List (Bool × α)) :
    firstFailing ((b, x) :: l) = if b = true then some x else firstFailing l := by
  cases b <;> rfl

theorem firstFailing_append (l l' : List (Bool × α)) :
    firstFailing (l ++ l') = (firstFailing l).or (firstFailing l') := by
  induction l with
  | nil => rfl
  | cons x rest ih =>
    obtain ⟨b, y⟩ := x
    rw [List.cons_append, firstFailing_cons, firstFailing_cons, ih]
    cases b <;> rfl

end

/-! ## Bits of a record's bytes -/

theorem byteAt_lt (r : List Byte) (o : Nat) : byteAt r o < 256 := (r.getD o 0).isLt

theorem leNat_lt (l : List Byte) : leNat l < 256 ^ l.length := by
  induction l with
  | nil => exact Nat.one_pos
  | cons b rest ih =>
    have byte : b.toNat < 256 := b.isLt
    rw [leNat, List.length_cons, pow_succ]
    omega

theorem leAt_lt (r : List Byte) (o n : Nat) : leAt r o n < 256 ^ n := by
  refine (leNat_lt _).trans_le (Nat.pow_le_pow_right (by decide) ?_)
  exact List.length_take_le _ _

theorem bitField_zero (v n : Nat) : bitField v 0 n = v % 2 ^ n := by rw [bitField, pow_zero, Nat.div_one]

theorem recordKeep_eq (r : List Byte) : recordKeep r = decide (byteAt r 5 % 2 = 1) := by
  rw [recordKeep, bitField_zero, pow_one]

theorem badLink_iff (a : Nat) : badLink a = true ↔ a ≠ 0 ∧ (a % 64 ≠ 0 ∨ 0x20000000 ≤ a) := by
  have bytes : Config.showBytes = 0x20000000 := rfl
  simp only [badLink, badAddress, Bool.and_eq_true, decide_eq_true_eq, bytes]
  omega

theorem kindHasElements_iff (kind : Nat) : kindHasElements kind = true ↔ kind = 1 ∨ kind = 2 := decide_eq_true_iff

theorem kindNamed_iff (kind : Nat) : kindNamed kind = true ↔ 1 ≤ kind ∧ kind ≤ 4 := decide_eq_true_iff

theorem needsSecondRequest_iff (r : List Byte) :
    needsSecondRequest r = true ↔ (byteAt r 2 = 1 ∨ byteAt r 2 = 2) ∧ 16 < byteAt r 3 := by
  rw [needsSecondRequest, Bool.and_eq_true, kindHasElements_iff, decide_eq_true_iff, recordKind, recordLength]

/-! ## Framing (R37) -/

/-- The length a record's kind and count give it. -/
theorem wrongLength_iff (kind length count : Nat) :
    ((kindNamed kind && decide (length ≠ if kindHasElements kind = true then 9 + count else 9)) = true ↔
      ((kind = 1 ∨ kind = 2) ∧ length ≠ 9 + count) ∨ ((kind = 3 ∨ kind = 4) ∧ length ≠ 9)) := by
  rw [Bool.and_eq_true, kindNamed_iff, decide_eq_true_iff]
  simp only [kindHasElements_iff]
  split <;> omega

theorem framingFault_eq (a : Nat) (r : List Byte) : framingFault a r = firstFailing (framingChecks a r) := by
  unfold framingFault framingChecks
  simp only [firstFailing_cons, firstFailing_nil, decide_eq_true_iff]
  refine if_congr Iff.rfl rfl (if_congr Iff.rfl rfl (if_congr Iff.rfl rfl (if_congr ?count rfl
    (if_congr ?length rfl (if_congr ?link rfl (if_congr ?stale rfl rfl))))))
  case count => rw [Bool.and_eq_true, kindHasElements_iff, Bool.not_eq_true', decide_eq_false_iff_not]; exact Iff.rfl
  case length => exact wrongLength_iff _ _ _
  case link => exact badLink_iff _
  case stale =>
    rw [Bool.and_eq_true, Bool.not_eq_true', recordKeep_eq, decide_eq_false_iff_not, decide_eq_true_iff]
    exact and_congr_left' Nat.mod_two_not_eq_one

/-! ## Meaning (R39) -/

/-- The checks of one element, given every element's tile and whether its mask is empty. -/
def elementChecks (tiles : Nat) (f : Nat → Nat × Bool) (i : Nat) : List (Bool × RefuseReason × BitVec 64) :=
  [(decide (tiles ≤ (f i).1), .badTile, detailPair i (f i).1),
   ((List.range i).any (fun j => (f j).1 == (f i).1), .dupTile, detailPair i (f i).1),
   ((f i).2, .badKind, detailOf (256 + i))]

theorem elementFault_cons (tiles i : Nat) (seen : List Nat) (x : Nat × Bool) (rest : List (Nat × Bool)) :
    elementFault tiles i seen (x :: rest) =
      if tiles ≤ x.1 then some (.badTile, detailPair i x.1)
      else if seen.contains x.1 then some (.dupTile, detailPair i x.1)
      else if x.2 then some (.badKind, detailOf (256 + i))
      else elementFault tiles (i + 1) (x.1 :: seen) rest := rfl

theorem elementFault_eq (tiles : Nat) (f : Nat → Nat × Bool) (m : Nat) : ∀ (k : Nat) (seen : List Nat),
    (∀ x, seen.contains x = (List.range k).any (fun j => (f j).1 == x)) →
    elementFault tiles k seen ((List.range' k m).map f) =
      firstFailing (((List.range' k m).map (elementChecks tiles f)).flatten) := by
  induction m with
  | zero => exact fun _ _ _ => rfl
  | succ m ih =>
    intro k seen before
    have after (x : Nat) : ((f k).1 :: seen).contains x = (List.range (k + 1)).any (fun j => (f j).1 == x) := by
      rw [List.contains_cons, before, List.range_succ, List.any_append, Bool.or_comm, List.any_cons, List.any_nil,
        Bool.or_false, BEq.comm]
    rw [List.range'_succ, List.map_cons, List.map_cons, List.flatten_cons, firstFailing_append, ← ih _ _ after]
    rw [elementFault_cons, elementChecks]
    simp only [firstFailing_cons, firstFailing_nil, decide_eq_true_iff, before]
    split_ifs
    · rfl
    · rfl
    · rfl
    · exact (Option.none_or ..).symm

/-- The tile of an element of a SCENE or TRIM record, and whether it is a TRIM element with an empty mask. -/
def elementOf (r : List Byte) (i : Nat) : Nat × Bool :=
  (byteAt r (72 + 8 * i) % 64, decide (byteAt r 2 = 2 ∧ byteAt r (73 + 8 * i) % 4 = 0))

theorem isNone_ite {α : Type} (p : Prop) [Decidable p] (x : α) :
    (if p then some x else none).isNone = !decide p := by
  by_cases h : p
  · rw [if_pos h, decide_eq_true h]
    rfl
  · rw [if_neg h, decide_eq_false h]
    rfl

theorem emptyMask_eq (r : List Byte) (o : Nat) :
    ((trimEntryAt r o).street.isNone && (trimEntryAt r o).dusk.isNone) = decide (byteAt r (o + 1) % 4 = 0) := by
  have street : (trimEntryAt r o).street.isNone = !decide (byteAt r (o + 1) % 2 = 1) := by
    show (if bitField (byteAt r (o + 1)) 0 1 = 1 then some _ else none).isNone = _
    rw [bitField_zero, pow_one]
    exact isNone_ite _ _
  have dusk : (trimEntryAt r o).dusk.isNone = !decide (byteAt r (o + 1) / 2 % 2 = 1) := by
    show (if bitField (byteAt r (o + 1)) 1 1 = 1 then some _ else none).isNone = _
    rw [bitField, pow_one]
    exact isNone_ite _ _
  rw [street, dusk, Bool.eq_iff_iff, Bool.and_eq_true, Bool.not_eq_true', Bool.not_eq_true', decide_eq_false_iff_not,
    decide_eq_false_iff_not, decide_eq_true_iff]
  omega

theorem elementsOf_eq {r : List Byte} (kind : byteAt r 2 = 1 ∨ byteAt r 2 = 2) :
    elementsOf r = (List.range (byteAt r 4)).map (elementOf r) := by
  unfold elementsOf elementOffsets
  rcases kind with scene | trim
  · rw [if_pos (show recordKind r = 1 from scene), List.map_map]
    refine List.map_congr_left fun i _ => Prod.ext (bitField_zero _ 6) ?_
    show false = decide (byteAt r 2 = 2 ∧ byteAt r (73 + 8 * i) % 4 = 0)
    rw [scene]
    exact (decide_eq_false (fun h => absurd h.1 (by decide))).symm
  · have other : ¬ recordKind r = 1 := fun h => absurd (h.symm.trans trim) (by decide)
    rw [if_neg other, if_pos (show recordKind r = 2 from trim), List.map_map]
    refine List.map_congr_left fun i _ => Prod.ext (bitField_zero _ 6) ((emptyMask_eq r _).trans ?_)
    rw [show 72 + 8 * i + 1 = 73 + 8 * i by omega]
    exact decide_eq_decide.2 ⟨fun h => ⟨trim, h⟩, fun h => h.2⟩

theorem elementsOf_none {r : List Byte} (kind : ¬ (byteAt r 2 = 1 ∨ byteAt r 2 = 2)) : elementsOf r = [] := by
  push Not at kind
  obtain ⟨scene, trim⟩ := kind
  unfold elementsOf
  rw [if_neg (show ¬ recordKind r = 1 from scene), if_neg (show ¬ recordKind r = 2 from trim)]

/-- The element checks of `meaningChecks`, found by the model's walk through the elements. -/
theorem elementFault_elementsOf (tiles : Nat) (r : List Byte) :
    elementFault tiles 0 [] (elementsOf r) = firstFailing (if byteAt r 2 = 1 ∨ byteAt r 2 = 2 then
      ((List.range (byteAt r 4)).map (elementChecks tiles (elementOf r))).flatten else []) := by
  split
  · next kind =>
    rw [elementsOf_eq kind, List.range_eq_range']
    exact elementFault_eq tiles (elementOf r) _ 0 [] fun _ => rfl
  · next kind => rw [elementsOf_none kind]; rfl

theorem meaningChecks_elements (tiles : Nat) (r : List Byte) :
    (List.range (byteAt r 4)).map (elementChecks tiles (elementOf r)) =
    (List.range (byteAt r 4)).map (fun i =>
      [(decide (tiles ≤ byteAt r (72 + 8 * i) % 64), RefuseReason.badTile,
          BitVec.ofNat 64 (i + 256 * (byteAt r (72 + 8 * i) % 64))),
       ((List.range i).any (fun j => byteAt r (72 + 8 * j) % 64 == byteAt r (72 + 8 * i) % 64), .dupTile,
          BitVec.ofNat 64 (i + 256 * (byteAt r (72 + 8 * i) % 64))),
       (decide (byteAt r 2 = 2 ∧ byteAt r (73 + 8 * i) % 4 = 0), .badKind, BitVec.ofNat 64 (256 + i))]) := by
  refine List.map_congr_left fun i there => ?_
  have small : i < 256 := (List.mem_range.1 there).trans (byteAt_lt r 4)
  have pair : detailPair i (byteAt r (72 + 8 * i) % 64) = BitVec.ofNat 64 (i + 256 * (byteAt r (72 + 8 * i) % 64)) := by
    have tile : byteAt r (72 + 8 * i) % 64 < 256 := (Nat.mod_lt _ (by decide)).trans (by decide)
    rw [detailPair, Nat.mod_eq_of_lt small, Nat.mod_eq_of_lt tile]
  rw [← pair]
  rfl

/-- The checks of an AT time name the offset of its first byte out of range. -/
theorem timeChecks_eq (rate : Nat) (r : List Byte) :
    (if byteAt r 6 = 1 then badTimeOffset rate (atTimeAt r) else none).map
      (fun o => (RefuseReason.badTime, detailOf o)) =
      firstFailing
        [(decide (byteAt r 6 = 1 ∧ 23 < byteAt r 16), .badTime, 16),
         (decide (byteAt r 6 = 1 ∧ 59 < byteAt r 17), .badTime, 17),
         (decide (byteAt r 6 = 1 ∧ 59 < byteAt r 18), .badTime, 18),
         (decide (byteAt r 6 = 1 ∧ rate ≤ byteAt r 19), .badTime, 19)] := by
  have offset (t : Clock) : (badTimeOffset rate t).map (fun o => (RefuseReason.badTime, detailOf o)) =
      if 23 < t.hours then some (.badTime, 16)
      else if 59 < t.minutes then some (.badTime, 17)
      else if 59 < t.seconds then some (.badTime, 18)
      else if rate ≤ t.frame then some (.badTime, 19) else none := by
    unfold badTimeOffset
    split_ifs <;> rfl
  simp only [firstFailing_cons, firstFailing_nil, decide_eq_true_iff]
  by_cases timed : byteAt r 6 = 1
  · simp only [timed, true_and, if_true]
    exact offset (atTimeAt r)
  · simp only [timed, false_and, if_false, Option.map_none]

theorem meaningFault_eq (p : Profile) (r : List Byte) :
    meaningFault p r = firstFailing (meaningChecks p.tiles p.rate r) := by
  have elements := elementFault_elementsOf p.tiles r
  rw [meaningChecks_elements] at elements
  have named : (!kindNamed (byteAt r 2)) = true ↔ byteAt r 2 = 0 ∨ 4 < byteAt r 2 := by
    rw [Bool.not_eq_true', ← Bool.not_eq_true, kindNamed_iff]
    omega
  have kind : byteAt r 2 = recordKind r := rfl
  unfold meaningFault meaningChecks
  dsimp only
  rw [firstFailing_append, ← elements]
  rw [kind] at named ⊢
  simp only [firstFailing_cons, firstFailing_nil, named, decide_eq_true_iff]
  generalize elementFault p.tiles 0 [] (elementsOf r) = found
  have times := timeChecks_eq p.rate r
  simp only [firstFailing_cons, firstFailing_nil, decide_eq_true_iff] at times
  rw [← times]
  generalize (if byteAt r 6 = 1 then badTimeOffset p.rate (atTimeAt r) else none) = time
  split_ifs
  · rfl
  · rfl
  · rfl
  · cases time with
    | none => rfl
    | some o => rfl

end Sys2Proof.Machine
end

section
/-! Records accepted, held and refused (R36, R37, R39, R40). -/

set_option Elab.async false

namespace Sys2Proof.Machine

/-! ## The words of a fetch arrive -/

section
variable {s : State} {a : Nat} {arrived data : List Byte}
  (fetch : s.follower.fetch = some (.record a arrived (some data)))
include fetch

theorem recordArrived_held {reason : HoldReason} {detail : BitVec 64} (first : arrived = [])
    (bad : framingFault a (arrived ++ data) = some (reason, detail)) :
    recordArrived s = enqueue (.fault (holdRecord s reason a detail) false) (enterHold reason .record a s) := by
  unfold recordArrived
  rw [fetch]
  dsimp only
  rw [if_pos first, bad]

theorem recordArrived_longer (first : arrived = []) (good : framingFault a (arrived ++ data) = none)
    (longer : needsSecondRequest (arrived ++ data) = true) :
    recordArrived s = s.setFollower { s.follower with fetch := some (.record a (arrived ++ data) none) } := by
  unfold recordArrived
  rw [fetch]
  dsimp only
  rw [if_pos first, good]
  exact if_pos longer

theorem recordArrived_judged
    (whole : arrived = [] → framingFault a (arrived ++ data) = none ∧ needsSecondRequest (arrived ++ data) = false) :
    recordArrived s = judgeRecord a (arrived ++ data) s := by
  unfold recordArrived
  rw [fetch]
  dsimp only
  split
  · next first =>
    obtain ⟨good, short⟩ := whole first
    rw [good, short]
    rfl
  · rfl

end

theorem takeLink_zero {address link : Nat} (last : link = 0) (s : State) :
    takeLink address link s = s.setFollower { s.follower with state := .awaitLink, follow := address, fetch := none } :=
  if_pos last

theorem takeLink_next {address link : Nat} (more : link ≠ 0) (s : State) :
    takeLink address link s = s.setFollower { s.follower with state := .fetching, follow := link, fetch := none } :=
  if_neg more

theorem judgeRecord_refused {a : Nat} {r : List Byte} {s : State} {reason : RefuseReason} {detail : BitVec 64}
    (bad : meaningFault s.prof r = some (reason, detail)) :
    judgeRecord a r s =
      enqueue (.fault ⟨reason.fault, false, BitVec.ofNat 32 a, s.now, detail⟩ false)
        (enqueueOutcome a (.refused reason) (takeLink a (recordLink r) s)) := by
  rw [judgeRecord, bad]

theorem judgeRecord_accepted {a : Nat} {r : List Byte} {s : State} (good : meaningFault s.prof r = none) :
    judgeRecord a r s =
      enqueueOutcome a .queued (appendEntry (cueAt a r) (takeLink a (recordLink r) s)) := by
  rw [judgeRecord, good]

theorem exec_recordWordsArrived (s : State) : exec .recordWordsArrived s = .next (dryEdge s (recordArrived s)) := rfl

theorem exec_recordWordsArrived_judged {s : State} {a : Nat} {arrived data : List Byte}
    (fetch : s.follower.fetch = some (.record a arrived (some data)))
    (whole : arrived = [] → framingFault a (arrived ++ data) = none ∧ needsSecondRequest (arrived ++ data) = false) :
    exec .recordWordsArrived s = .next (dryEdge s (judgeRecord a (arrived ++ data) s)) := by
  rw [exec_recordWordsArrived, recordArrived_judged fetch whole]

/-- A follower that is not in AWAIT_LINK has no DRY to raise (R44). -/
theorem State.dry_of_state_ne {s : State} (other : s.follower.state ≠ .awaitLink) : s.dry = false := by
  rw [State.dry, decide_eq_false other, Bool.false_and]

theorem whole_of_not_longer {a : Nat} {arrived r : List Byte}
    (whole : arrived = [] → firstFailing (framingChecks a r) = none ∧
      ¬ ((byteAt r 2 = 1 ∨ byteAt r 2 = 2) ∧ 16 < byteAt r 3)) :
    arrived = [] → framingFault a r = none ∧ needsSecondRequest r = false := by
  intro first
  obtain ⟨good, short⟩ := whole first
  exact ⟨(framingFault_eq a r).trans good, by rw [← Bool.not_eq_true, needsSecondRequest_iff]; exact short⟩

/-! ## Records held and refused -/

theorem enqueue_enqueue_report (x y : QueueItem) (s : State) :
    (enqueue y (enqueue x s)).report = { s.report with queue := s.report.queue ++ [x, y] } :=
  congrArg (fun q => { s.report with queue := q }) (List.append_assoc s.report.queue [x] [y])

/-- A refused record takes its link with its two writes in the queue. -/
theorem refused_outcome {s : State} {a : Nat} {r : List Byte} {reason : RefuseReason} {detail : BitVec 64}
    (bad : meaningFault s.prof r = some (reason, detail)) :
    OnlyIn [.follower, .report] s (judgeRecord a r s) ∧
    (judgeRecord a r s).report = { s.report with queue := s.report.queue ++
      [.outcome ⟨a, .refused reason⟩ false,
       .fault ⟨reason.fault, false, BitVec.ofNat 32 a, s.now, detail⟩ false] } ∧
    (judgeRecord a r s).follower = (takeLink a (recordLink r) s).follower := by
  have only := onlyIn_takeLink a (recordLink r) s
  rw [judgeRecord_refused bad]
  refine ⟨((only.mono (by decide)).trans ((onlyIn_enqueue _ _).mono (by decide))).trans
    ((onlyIn_enqueue _ _).mono (by decide)), ?_, rfl⟩
  rw [enqueueOutcome, enqueue_enqueue_report, only.report]

/-- Settles O47. -/
theorem badRecordIsHeldOrRefused : Obligations.BadRecordIsHeldOrRefused := by
  intro a arrived data s fetch r longer
  refine ⟨fun reason detail first bad => ?held, fun whole reason detail bad => ?refused⟩
  case held =>
    have held := recordArrived_held fetch first ((framingFault_eq a r).trans bad)
    refine ⟨_, (exec_recordWordsArrived s).trans (congrArg _ (dryEdge_of_not_dry (State.dry_of_state_ne ?_))), ?_, ?_,
      ?_⟩
    all_goals rw [held]
    · exact fun h => nomatch h
    · exact ((onlyIn_enterHold _ _ _ s).mono (by decide)).trans ((onlyIn_enqueue _ _).mono (by decide))
    · rfl
    · cases reason <;> rfl
  case refused =>
    obtain ⟨only, report, follower⟩ := refused_outcome (a := a) ((meaningFault_eq s.prof r).trans bad)
    have only' : OnlyIn [.follower, .report, .window] s (dryEdge s (judgeRecord a r s)) :=
      onlyIn_dryEdge s (only.mono (by decide)) (by decide)
    have dry := onlyIn_dryEdge_after s (judgeRecord a r s)
    refine ⟨_, exec_recordWordsArrived_judged fetch (whole_of_not_longer whole), only', ?_, ?_, ?_, ?_⟩
    · rw [dry.report, report]
      cases reason <;> rfl
    · rw [dry.follower, follower]
      exact takeLink_fetch _ _ _
    · intro last
      rw [dry.follower, follower, takeLink_zero (link := recordLink r) last]
      refine ⟨rfl, rfl, fun empty before => flag_dryEdge (State.dry_of_state_ne before) ?_⟩
      rw [State.dry, follower, takeLink_zero (link := recordLink r) last, only.scheduler, empty]
      rfl
    · intro more
      have still : dryEdge s (judgeRecord a r s) = judgeRecord a r s := by
        refine dryEdge_of_not_dry (State.dry_of_state_ne ?_)
        rw [follower, takeLink_next (link := recordLink r) more]
        exact fun h => nomatch h
      rw [dry.follower, follower, takeLink_next (link := recordLink r) more, still]
      exact ⟨rfl, rfl, only.window⟩

/-! ## A new entry (R40, R55, R65) -/

/-- The fold of the clock-set list from a frame at least as late as those before. -/
theorem foldl_clockFrames (l : List ClockSet) (n : Nat) :
    ∃ m, l.foldl (fun acc e => some (max (acc.getD 0) e.visible)) (some n) = some m ∧
      (m = n ∨ ∃ last ∈ l, m = last.visible) ∧ n ≤ m ∧ ∀ c ∈ l, c.visible ≤ m := by
  induction l generalizing n with
  | nil => exact ⟨n, rfl, .inl rfl, le_rfl, fun _ h => (nomatch h)⟩
  | cons x rest ih =>
    obtain ⟨m, folded, source, above, all⟩ := ih (max n x.visible)
    refine ⟨m, folded, ?_, (le_max_left _ _).trans above, fun c there => ?_⟩
    · rcases source with rfl | ⟨last, there, same⟩
      · rcases max_choice n x.visible with same | same
        · exact .inl same
        · exact .inr ⟨x, List.mem_cons_self, same⟩
      · exact .inr ⟨last, List.mem_cons_of_mem x there, same⟩
    · rcases List.mem_cons.1 there with rfl | later
      · exact (le_max_right _ _).trans above
      · exact all c later

theorem lastClockFrame_of_ne {l : List ClockSet} (some : l ≠ []) :
    ∃ last ∈ l, lastClockFrame l = .some last.visible ∧ ∀ c ∈ l, c.visible ≤ last.visible := by
  obtain ⟨x, rest, rfl⟩ := List.exists_cons_of_ne_nil some
  obtain ⟨m, folded, source, above, all⟩ := foldl_clockFrames rest (max 0 x.visible)
  rw [Nat.zero_max] at source above
  have found : lastClockFrame (x :: rest) = .some m := folded
  rcases source with rfl | ⟨last, there, rfl⟩
  · refine ⟨x, List.mem_cons_self, found, fun c there => ?_⟩
    rcases List.mem_cons.1 there with rfl | later
    · exact le_rfl
    · exact all c later
  · refine ⟨last, List.mem_cons_of_mem x there, found, fun c there => ?_⟩
    rcases List.mem_cons.1 there with rfl | later
    · exact above
    · exact all c later

theorem lastClockFrame_eq_none_iff (l : List ClockSet) : lastClockFrame l = none ↔ l = [] := by
  refine ⟨fun none => by_contra fun some => ?_, fun empty => by rw [empty]; rfl⟩
  obtain ⟨last, -, found, -⟩ := lastClockFrame_of_ne some
  cases none.symm.trans found

/-- The CLOCK entries ahead of a new entry that are not departing. -/
def State.clocksAhead (s : State) : List Nat :=
  (s.scheduler.queue.filter (fun e => e.departing.isNone && e.cue.body.isClock)).map (·.cue.record)

theorem isClock_iff (b : CueBody) : b.isClock = true ↔ ∃ c, b = .clock c := by
  cases b with
  | clock c => exact iff_of_true rfl ⟨c, rfl⟩
  | scene | trim | mark => exact iff_of_false Bool.false_ne_true (fun ⟨_, h⟩ => nomatch h)

theorem State.mem_clocksAhead (s : State) (r : Nat) :
    r ∈ s.clocksAhead ↔
      ∃ x ∈ s.scheduler.queue, x.cue.record = r ∧ x.departing = none ∧ ∃ c, x.cue.body = .clock c := by
  simp only [State.clocksAhead, List.mem_map, List.mem_filter, Bool.and_eq_true, Option.isNone_iff_eq_none, isClock_iff]
  exact ⟨fun ⟨x, ⟨there, still, clock⟩, same⟩ => ⟨x, there, same, still, clock⟩,
    fun ⟨x, there, same, still, clock⟩ => ⟨x, ⟨there, still, clock⟩, same⟩⟩

theorem State.clocksAhead_eq_nil_iff (s : State) :
    s.clocksAhead = [] ↔ ¬ ∃ x ∈ s.scheduler.queue, x.departing = none ∧ ∃ c, x.cue.body = .clock c := by
  rw [List.eq_nil_iff_forall_not_mem]
  simp only [State.mem_clocksAhead]
  exact ⟨fun h ⟨x, there, still, clock⟩ => h x.cue.record ⟨x, there, rfl, still, clock⟩,
    fun h r ⟨x, there, _, still, clock⟩ => h ⟨x, there, still, clock⟩⟩

/-- The working fields of a new entry, its target apart. -/
def freshEntry (s : State) (c : Cue) : Entry :=
  { cue := c, slackUsed := 0, target := none, late := false, eventFrame := none, clockAhead := s.clocksAhead
    clockFrame := lastClockFrame s.ftg.clockSets, departing := none, attemptable := false }

section
variable {s : State} {c : Cue}

theorem newEntry_fixed (timed : c.mode = .atTime) (ahead : s.clocksAhead = []) (sets : s.ftg.clockSets = []) :
    newEntry s c = (freshEntry s c).fixTarget s :=
  if_pos ⟨timed, ahead, (lastClockFrame_eq_none_iff _).2 sets⟩

theorem newEntry_fresh (waits : c.mode = .atTime → s.clocksAhead ≠ [] ∨ s.ftg.clockSets ≠ []) :
    newEntry s c = freshEntry s c := by
  refine if_neg fun ⟨timed, ahead, sets⟩ => ?_
  rcases waits timed with some | some
  · exact some ahead
  · exact some ((lastClockFrame_eq_none_iff _).1 sets)

/-- A new entry is a fresh one but for its target. -/
theorem newEntry_eq (s : State) (c : Cue) :
    newEntry s c = { freshEntry s c with target := (newEntry s c).target, late := (newEntry s c).late } := by
  by_cases fixed : c.mode = .atTime ∧ s.clocksAhead = [] ∧ s.ftg.clockSets = []
  · obtain ⟨timed, ahead, sets⟩ := fixed
    rw [newEntry_fixed timed ahead sets]
    rfl
  · rw [newEntry_fresh fun timed => ?_]
    by_contra none
    push Not at none
    exact fixed ⟨timed, none.1, none.2⟩

end

/-! ## The snapshot of a record (R55, R186) -/

theorem leAt_three_lt (r : List Byte) (o : Nat) : leAt r o 3 < 4096 * 4096 := (leAt_lt r o 3).trans_le (by decide)

theorem assignmentAt_eq (r : List Byte) (o : Nat) :
    assignmentAt r o =
      { tile := byteAt r o % 64, plate := byteAt r (o + 1), x0 := leAt r (o + 2) 3 % 4096, y0 := leAt r (o + 2) 3 / 4096
        fill := if 128 ≤ byteAt r o then some ⟨r.getD (o + 5) 0, r.getD (o + 6) 0, r.getD (o + 7) 0⟩ else none } := by
  have high : bitField (byteAt r o) 7 1 = 1 ↔ 128 ≤ byteAt r o := by
    have byte := byteAt_lt r o
    show byteAt r o / 128 % 2 = 1 ↔ _
    omega
  have y0 : bitField (leAt r (o + 2) 3) 12 12 = leAt r (o + 2) 3 / 4096 :=
    Nat.mod_eq_of_lt (Nat.div_lt_of_lt_mul (leAt_three_lt r (o + 2)))
  rw [assignmentAt, bitField_zero, bitField_zero, y0]
  simp only [high]
  rfl

theorem trimEntryAt_eq (r : List Byte) (o : Nat) :
    trimEntryAt r o =
      { tile := byteAt r o % 64
        street := if byteAt r (o + 1) % 2 = 1 then some (byteAt r (o + 2) % 32) else none
        dusk := if byteAt r (o + 1) / 2 % 2 = 1 then some (byteAt r (o + 3) % 32) else none } := by
  rw [trimEntryAt, bitField_zero, bitField_zero, bitField_zero, bitField_zero]
  rfl

theorem bodyAt_scene {r : List Byte} (kind : recordKind r = 1) :
    bodyAt r = .scene ((elementOffsets r).map (assignmentAt r)) := by
  rw [bodyAt, kind]
  rfl

theorem bodyAt_trim {r : List Byte} (kind : recordKind r = 2) :
    bodyAt r = .trim ((elementOffsets r).map (trimEntryAt r)) := by
  rw [bodyAt, kind]
  rfl

theorem bodyAt_clock {r : List Byte} (kind : recordKind r = 3) : bodyAt r = .clock (clockValueAt r) := by
  rw [bodyAt, kind]
  rfl

theorem bodyAt_mark {r : List Byte} (kind : recordKind r = 4) :
    bodyAt r = .mark (BitVec.ofNat 32 (leAt r 24 4)) := by
  rw [bodyAt, kind]
  rfl

theorem bodyOf_bodyAt (r : List Byte) : BodyOf r (bodyAt r) := by
  refine ⟨fun scene => ?_, fun trim => ?_, fun clock => ?_, fun mark => ?_⟩
  · rw [bodyAt_scene scene, elementOffsets, List.map_map]
    exact congrArg _ (List.map_congr_left fun i _ => assignmentAt_eq r (72 + 8 * i))
  · rw [bodyAt_trim trim, elementOffsets, List.map_map]
    exact congrArg _ (List.map_congr_left fun i _ => trimEntryAt_eq r (72 + 8 * i))
  · rw [bodyAt_clock clock, clockValueAt, bitField_zero, bitField_zero, bitField_zero, bitField_zero]
    rfl
  · exact bodyAt_mark mark

/-- A start mode that passed the checks of meaning has its code. -/
theorem startModeOf_code {n : Nat} (small : n ≤ 3) :
    n = match startModeOf n with | .after => 0 | .atTime => 1 | .onTrigger => 2 | .onPulse => 3 := by
  interval_cases n <;> rfl

theorem mode_le_of_meaning {p : Profile} {r : List Byte} (good : meaningFault p r = none) : byteAt r 6 ≤ 3 := by
  unfold meaningFault at good
  split_ifs at good with _ mode
  all_goals exact Nat.le_of_not_lt mode

/-! ## Records accepted -/

/-- An accepted record takes its link, its entry at the tail of the queue and its QUEUED write handed on. -/
theorem accepted_outcome {s : State} {a : Nat} {r : List Byte} (good : meaningFault s.prof r = none) :
    OnlyIn [.follower, .scheduler, .report] s (judgeRecord a r s) ∧
    (judgeRecord a r s).report = { s.report with queue := s.report.queue ++ [.outcome ⟨a, .queued⟩ false] } ∧
    (judgeRecord a r s).follower = (takeLink a (recordLink r) s).follower ∧
    (judgeRecord a r s).scheduler = { s.scheduler with queue := s.scheduler.queue ++ [newEntry s (cueAt a r)] } := by
  have only := onlyIn_takeLink a (recordLink r) s
  have entry : newEntry (takeLink a (recordLink r) s) (cueAt a r) = newEntry s (cueAt a r) := by
    unfold newEntry Entry.fixTarget
    rw [only.scheduler, only.ftg, only.prof, only.now]
  rw [judgeRecord_accepted good]
  refine ⟨?_, ?_, rfl, ?_⟩
  · exact ((only.mono (by decide)).trans ((onlyIn_setScheduler _ _).mono (by decide))).trans
      ((onlyIn_enqueue _ _).mono (by decide))
  · have written (u : State) (x : QueueItem) :
        (enqueue x u).report = { u.report with queue := u.report.queue ++ [x] } := rfl
    rw [enqueueOutcome, written, appendEntry, State.setScheduler_report, only.report]
  · have written (u : State) (x : QueueItem) : (enqueue x u).scheduler = u.scheduler := rfl
    rw [enqueueOutcome, written, appendEntry, State.setScheduler_scheduler, entry, only.scheduler]

/-- The fields that do not depend on what a new entry waits for. -/
theorem newEntry_fields (s : State) (c : Cue) :
    (newEntry s c).slackUsed = 0 ∧ (newEntry s c).eventFrame = none ∧ (newEntry s c).departing = none ∧
    (newEntry s c).attemptable = false ∧ (newEntry s c).clockAhead = s.clocksAhead ∧
    (newEntry s c).clockFrame = lastClockFrame s.ftg.clockSets := by
  rw [newEntry_eq]
  exact ⟨rfl, rfl, rfl, rfl, rfl, rfl⟩

/-- The target of a new AT entry is fixed exactly when no CLOCK cue ahead may still change it (R65). -/
theorem newEntry_target {s : State} {c : Cue} (timed : c.mode = .atTime) :
    let clockAhead := (∃ x ∈ s.scheduler.queue, x.departing = none ∧ ∃ v, x.cue.body = .clock v) ∨ s.ftg.clockSets ≠ []
    let target := atTarget s.prof s.now s.ftg.clock c.atTime
    (clockAhead → (newEntry s c).target = none ∧ (newEntry s c).late = false) ∧
    (¬ clockAhead → (newEntry s c).target = some target.1 ∧ (newEntry s c).late = target.2) := by
  refine ⟨fun waits => ?_, fun ready => ?_⟩
  · have fresh : newEntry s c = freshEntry s c := newEntry_fresh fun _ => waits.imp_left fun some none =>
      (s.clocksAhead_eq_nil_iff.1 none) some
    rw [fresh]
    exact ⟨rfl, rfl⟩
  · push Not at ready
    obtain ⟨ahead, sets⟩ := ready
    have none : s.clocksAhead = [] :=
      s.clocksAhead_eq_nil_iff.2 fun ⟨x, there, still, v, clock⟩ => ahead x there still v clock
    rw [newEntry_fixed timed none sets]
    exact ⟨rfl, rfl⟩

theorem newEntry_untimed {s : State} {c : Cue} (other : c.mode ≠ .atTime) :
    (newEntry s c).target = none ∧ (newEntry s c).late = false := by
  rw [newEntry_fresh fun timed => absurd timed other]
  exact ⟨rfl, rfl⟩

theorem dryEdge_of_dry_eq {s t : State} (same : t.dry = s.dry) : dryEdge s t = t := by
  rw [dryEdge, same, Bool.not_and_self]
  rfl

/-- Settles O46. -/
theorem goodRecordIsAccepted : Obligations.GoodRecordIsAccepted := by
  refine ⟨?_, fun a r s fetch some calm port report plate => ?second⟩
  · intro a arrived data s fetch r longer
    refine ⟨fun first good long => ?longer, fun whole good => ?accepted⟩
    case longer =>
      have followed := recordArrived_longer fetch first ((framingFault_eq a r).trans good)
        ((needsSecondRequest_iff r).2 long)
      have still : dryEdge s (recordArrived s) = recordArrived s := by
        rw [followed]
        exact dryEdge_of_dry_eq rfl
      exact ⟨_, (exec_recordWordsArrived s).trans (congrArg _ (still.trans followed)), onlyIn_setFollower s _, rfl⟩
    case accepted =>
      have meant := (meaningFault_eq s.prof r).trans good
      obtain ⟨only, report, follower, scheduler⟩ := accepted_outcome (a := a) meant
      have still : dryEdge s (judgeRecord a r s) = judgeRecord a r s := by
        refine dryEdge_of_not_dry ?_
        rw [State.dry, scheduler]
        refine (Bool.and_eq_false_iff).2 (.inr ?_)
        rw [List.isEmpty_eq_false_iff]
        exact List.append_ne_nil_of_right_ne_nil _ (List.cons_ne_nil _ _)
      obtain ⟨slack, event, undeparted, held, ahead, frame⟩ := newEntry_fields s (cueAt a r)
      have cue := newEntry_cue s (cueAt a r)
      refine ⟨judgeRecord a r s, newEntry s (cueAt a r),
        (exec_recordWordsArrived_judged fetch (whole_of_not_longer whole)).trans (congrArg _ still), only, scheduler,
        slack, event, undeparted, held, ?_⟩
      rw [follower, ahead, frame, cue]
      refine ⟨List.filter_sublist.map _, s.mem_clocksAhead, (lastClockFrame_eq_none_iff _).2, lastClockFrame_of_ne,
        newEntry_untimed, newEntry_target, rfl, bodyOf_bodyAt r, startModeOf_code (mode_le_of_meaning meant),
        recordKeep_eq r, rfl, rfl, rfl, rfl, rfl, rfl, rfl, report, fun last => ?_, fun more => ?_⟩
      · rw [takeLink_zero (link := recordLink r) last]
        rfl
      · rw [takeLink_next (link := recordLink r) more]
        rfl
  case second =>
    refine ⟨_, (exec_grantDecision s).trans (congrArg _ (grantDecision_place4 calm port report)), ?_⟩
    rw [grantPlace4_follower plate (by simp only [State.followerWaits, fetch]), grantFollower_record fetch]
    refine ⟨onlyIn_setFollower s _, ?_⟩
    rw [recordRequest, if_neg some, Nat.mul_add]
    rfl

end Sys2Proof.Machine
end

section
/-! The pixels the link takes (R107, R108, R112, R121, R125 to R127, R135). -/

set_option Elab.async false

namespace Sys2Proof.Machine

/-! ## One lane -/

theorem laneGives_take (fill : Rgb) (r c : Nat) (l : Lane) :
    LaneGives fill r c l (l.take fill r c).1 (l.take fill r c).2.1 (l.take fill r c).2.2 := by
  have outside_iff : (l.content.rIn ≤ r ∨ l.content.cIn ≤ c) ↔ ¬ (r < l.content.rIn ∧ c < l.content.cIn) := by omega
  refine ⟨fun outside => ?_, fun inside under => ?_, fun x rest inside fresh words row => ?_,
    fun inside fresh front => ?_⟩
  · rw [Lane.take, if_pos (outside_iff.2 outside)]
    exact ⟨rfl, rfl, rfl⟩
  · rw [Lane.take, if_neg (fun h => outside_iff.1 h inside), if_pos under]
    exact ⟨rfl, rfl, rfl⟩
  · rw [Lane.take, if_neg (fun h => outside_iff.1 h inside), if_neg (by rw [fresh]; decide), words]
    dsimp only
    rw [if_pos row]
    exact ⟨rfl, rfl, rfl⟩
  · have abandoned : l.take fill r c = (l.lastPixel.getD fill, l.abandon r, true) := by
      rw [Lane.take, if_neg (fun h => outside_iff.1 h inside), if_neg (by rw [fresh]; decide)]
      split
      · rfl
      · next x rest words => rw [if_neg (front x rest words)]
    rw [abandoned]
    refine ⟨rfl, rfl, fun same => ?_, fun other => ?_⟩
    · exact if_pos same
    · exact if_neg other

/-- A burst of a lane for the row where it underran is stale. -/
def Burst.staled (id : LaneId) (r : Nat) (underran : Bool) (x : Burst) : Burst :=
  if underran = true ∧ x.lane = id ∧ x.row = r then { x with stale := true } else x

theorem Engine.takeLane_eq (id : LaneId) (fill : Rgb) (e : Engine) :
    e.takeLane id fill =
      let t := (e.lane id).take fill e.sendRow e.sendCol
      (t.1, { e.setLane id t.2.1 with flight := e.flight.map (Burst.staled id e.sendRow t.2.2) }, t.2.2) := by
  have same : (e.setLane id ((e.lane id).take fill e.sendRow e.sendCol).2.1).flight = e.flight := e.setLane_flight id _
  unfold Engine.takeLane
  dsimp only
  cases under : ((e.lane id).take fill e.sendRow e.sendCol).2.2 with
  | true =>
    have all : Burst.staled id e.sendRow true =
        fun b => if b.lane = id ∧ b.row = e.sendRow then { b with stale := true } else b := by
      funext b
      exact if_congr (and_iff_right rfl) rfl rfl
    rw [if_pos rfl, Engine.staleRow, same, all]
  | false =>
    have all : e.flight.map (Burst.staled id e.sendRow false) = e.flight :=
      (List.map_congr_left fun x _ => if_neg fun h => Bool.false_ne_true h.1).trans (List.map_id _)
    rw [if_neg Bool.false_ne_true, all, ← same]

/-- At the end of a row a lane has sent no pixel of the next. -/
def Lane.onward (more : Prop) [Decidable more] (l : Lane) : Lane :=
  if more then l else { l with lastPixel := none, underran := false }

theorem Engine.nextPosition_eq (width : Nat) (e : Engine) :
    e.nextPosition width = { e with
      main := e.main.onward (e.sendCol + 1 < width), old := e.old.map (Lane.onward (e.sendCol + 1 < width))
      sendRow := if e.sendCol + 1 < width then e.sendRow else e.sendRow + 1
      sendCol := if e.sendCol + 1 < width then e.sendCol + 1 else 0 } := by
  unfold Engine.nextPosition Lane.onward
  split
  · rw [Option.map_id']
  · rfl

theorem Engine.rowUnderran_eq_false_iff (e : Engine) :
    e.rowUnderran = false ↔ e.main.underran = false ∧ ∀ o ∈ e.old, o.underran = false := by
  rw [Engine.rowUnderran, Bool.or_eq_false_iff]
  cases e.old with
  | none => simp
  | some o => simp

/-! ## The next pixel -/

/-- The engine after a mixed pixel: its underruns counted once a row, its position moved on (R121, R127). -/
theorem takePixel_of_mixed {p : Profile} {size : Nat × Nat} {t : Tile} {px : Rgb} {e' : Engine} {n : Nat}
    (mixed : t.engine.mixed p.idleFill t.scan.fade = (px, e', n)) :
    t.takePixel p size = ({ t with
      link := { t.link with sent := some (t.scan.levelRgb p.duskScale px) }
      engine := { e' with
        main := e'.main.onward (e'.sendCol + 1 < size.1)
        old := e'.old.map (Lane.onward (e'.sendCol + 1 < size.1))
        sendRow := if e'.sendCol + 1 < size.1 then e'.sendRow else e'.sendRow + 1
        sendCol := if e'.sendCol + 1 < size.1 then e'.sendCol + 1 else 0
        underruns := if 0 < n ∧ t.engine.rowUnderran = false then min (e'.underruns + 1) 65535 else e'.underruns } },
      n) := by
  rw [Tile.takePixel, mixed]
  dsimp only
  rw [Engine.nextPosition_eq]
  by_cases counts : 0 < n ∧ t.engine.rowUnderran = false
  · rw [if_pos counts, if_pos ⟨counts.1, by rw [counts.2]; rfl⟩]
    rfl
  · rw [if_neg counts, if_neg fun h => counts ⟨h.1, by simpa using h.2⟩]

/-- What the engine sends of its lanes: the new lane alone outside a fade (R107). -/
theorem Engine.mixed_single {idle : Rgb} {fade : Option Fade} {e : Engine} (single : e.old = none) :
    e.mixed idle fade =
      let y := e.main.take (e.main.content.fillOf idle) e.sendRow e.sendCol
      (y.1, { e with main := y.2.1, flight := e.flight.map (Burst.staled .main e.sendRow y.2.2) }, y.2.2.toNat) := by
  obtain ⟨main, old, active, row, col, under, flight⟩ := e
  cases single
  unfold Engine.mixed
  dsimp only
  rw [Engine.takeLane_eq]
  rfl

/-- In a fade the two lanes are read independently and mixed at the fade's step (R107, R121). -/
theorem Engine.mixed_fade {idle : Rgb} {f : Fade} {e : Engine} {o : Lane} (split : e.old = some o) :
    e.mixed idle (some f) =
      let x := o.take (o.content.fillOf idle) e.sendRow e.sendCol
      let y := e.main.take (e.main.content.fillOf idle) e.sendRow e.sendCol
      (mixRgb x.1 y.1 f.n f.step,
       { e with
         main := y.2.1, old := some x.2.1
         flight := (e.flight.map (Burst.staled .old e.sendRow x.2.2)).map (Burst.staled .main e.sendRow y.2.2) },
       x.2.2.toNat + y.2.2.toNat) := by
  obtain ⟨main, old, active, row, col, under, flight⟩ := e
  cases split
  unfold Engine.mixed
  dsimp only
  rw [Engine.takeLane_eq, Engine.takeLane_eq]
  rfl

/-! ## The command -/

theorem exec_linkTakesPixel (k : Nat) (s : State) : exec (.linkTakesPixel k) s = .next (linkTakesPixel k s) := rfl

section
variable {k : Nat} {s : State} (running : s.ftg.running = true) (small : k < s.prof.tiles)
include running small

theorem State.sending_eq : s.sending k = !(s.tile k).link.stepped := by
  rw [State.sending, running, decide_eq_true small]
  rfl

theorem linkTakesPixel_idle (none : (s.tile k).link.stepped = true ∨
    ((s.tile k).engine.active = false ∧ (s.prof.size k).2 ≤ (s.tile k).link.blackRow) ∨
    ((s.tile k).engine.active = true ∧ (s.prof.size k).2 ≤ (s.tile k).engine.sendRow)) : linkTakesPixel k s = s := by
  unfold linkTakesPixel
  rw [State.sending_eq running small, Bool.not_not]
  rcases none with out | ⟨black, last⟩ | ⟨active, last⟩
  · exact if_pos out
  · rw [black, if_neg Bool.false_ne_true, if_pos last, ite_self]
  · rw [active, if_pos rfl, if_pos last, ite_self]

section
variable (fresh : (s.tile k).link.stepped = false)
include fresh

theorem linkTakesPixel_black (black : (s.tile k).engine.active = false)
    (left : (s.tile k).link.blackRow < (s.prof.size k).2) :
    linkTakesPixel k s = s.updTile k (fun t => { t with link := t.link.sendBlack (s.prof.size k).1 }) := by
  unfold linkTakesPixel
  rw [State.sending_eq running small, Bool.not_not, fresh, black, if_neg Bool.false_ne_true, if_neg Bool.false_ne_true,
    if_neg (Nat.not_le_of_lt left)]

theorem linkTakesPixel_active (active : (s.tile k).engine.active = true)
    (left : (s.tile k).engine.sendRow < (s.prof.size k).2) :
    linkTakesPixel k s =
      let r := (s.tile k).takePixel s.prof (s.prof.size k)
      if 0 < r.2 then raise .underrun (s.setTile k r.1) else s.setTile k r.1 := by
  unfold linkTakesPixel
  rw [State.sending_eq running small, Bool.not_not, fresh, active, if_neg Bool.false_ne_true, if_pos rfl,
    if_neg (Nat.not_le_of_lt left)]

end
end

/-- A tile column set, with UNDERRUN raised if there was one. -/
theorem setTile_underrun {k n : Nat} {s : State} (t : Tile) (there : k < s.tiles.length) {underran : Bool}
    (counts : 0 < n ↔ underran = true) :
    let u := if 0 < n then raise .underrun (s.setTile k t) else s.setTile k t
    OtherTilesKept k s u ∧ OnlyIn [.tiles, .window] s u ∧ u.tile k = t ∧
    (underran = false → u.window = s.window) ∧ (underran = true → u.flag .underrun = true) := by
  have tile := State.tile_setTile_same t there
  dsimp only
  split
  · next under =>
    refine ⟨?_, ((onlyIn_setTile k t s).mono (by decide)).trans ((onlyIn_raise _ _).mono (by decide)), ?_,
      fun none => ?_, fun _ => flag_raise_same _ _⟩
    · exact otherTilesKept_setTile k s t
    · exact tile
    · cases none.symm.trans (counts.1 under)
  · next none =>
    exact ⟨otherTilesKept_setTile k s t, (onlyIn_setTile k t s).mono (by decide), tile, fun _ => rfl,
      fun under => absurd (counts.2 under) none⟩

/-- A mixed pixel is levelled and sent, and the underruns it took are counted once a row (R112, R121, R127). -/
theorem sendsMixed {k n : Nat} {s : State} {px : Rgb} {main : Lane} {old : Option Lane} {flight : List Burst}
    {underran : Bool} (running : s.ftg.running = true) (small : k < s.prof.tiles) (there : k < s.tiles.length)
    (fresh : (s.tile k).link.stepped = false) (active : (s.tile k).engine.active = true)
    (left : (s.tile k).engine.sendRow < (s.prof.size k).2)
    (mixed : (s.tile k).engine.mixed s.prof.idleFill (s.tile k).scan.fade =
      (px, { (s.tile k).engine with main := main, old := old, flight := flight }, n))
    (counts : 0 < n ↔ underran = true) :
    ∃ t, exec (.linkTakesPixel k) s = .next t ∧
      OtherTilesKept k s t ∧ OnlyIn [.tiles, .window] s t ∧
      t.tile k = { s.tile k with
        link := { (s.tile k).link with sent := some ((s.tile k).scan.levelRgb s.prof.duskScale px) }
        engine := { (s.tile k).engine with
          main := main.onward ((s.tile k).engine.sendCol + 1 < (s.prof.size k).1)
          old := old.map (Lane.onward ((s.tile k).engine.sendCol + 1 < (s.prof.size k).1))
          flight := flight
          sendRow := if (s.tile k).engine.sendCol + 1 < (s.prof.size k).1 then (s.tile k).engine.sendRow
            else (s.tile k).engine.sendRow + 1
          sendCol := if (s.tile k).engine.sendCol + 1 < (s.prof.size k).1 then (s.tile k).engine.sendCol + 1 else 0
          underruns := if underran = true ∧ (s.tile k).engine.main.underran = false ∧
              (∀ o ∈ (s.tile k).engine.old, o.underran = false)
            then min ((s.tile k).engine.underruns + 1) 65535 else (s.tile k).engine.underruns } } ∧
      (underran = false → t.window = s.window) ∧ (underran = true → t.flag .underrun = true) := by
  have once : (underran = true ∧ (s.tile k).engine.main.underran = false ∧
      (∀ o ∈ (s.tile k).engine.old, o.underran = false)) ↔ 0 < n ∧ (s.tile k).engine.rowUnderran = false := by
    rw [counts, Engine.rowUnderran_eq_false_iff]
  obtain ⟨others, only, tile, quiet, told⟩ :=
    setTile_underrun ((s.tile k).takePixel s.prof (s.prof.size k)).1 there counts
  have taken := takePixel_of_mixed (size := s.prof.size k) mixed
  have run := linkTakesPixel_active running small fresh active left
  dsimp only at run
  rw [show ((s.tile k).takePixel s.prof (s.prof.size k)).2 = n from congrArg Prod.snd taken] at run
  refine ⟨_, (exec_linkTakesPixel k s).trans (congrArg _ run), others, only, ?_, quiet, told⟩
  rw [tile, taken, if_congr once rfl rfl]

theorem toNat_pos_iff (u : Bool) : 0 < u.toNat ↔ u = true := by cases u <;> simp

theorem underruns_iff (v u : Bool) : 0 < v.toNat + u.toNat ↔ (u || v) = true := by
  rw [Bool.or_eq_true, ← toNat_pos_iff u, ← toNat_pos_iff v]
  omega

/-- Settles O54. -/
theorem linkTakesTheNextPixel : Obligations.LinkTakesTheNextPixel := by
  intro k s running small there e b w h fill onward stale sends
  refine ⟨fun none => ?_, fun fresh black left => ?_, fun fresh active left single => ?_,
    fun o f fresh active left split fade => ?_⟩
  · exact congrArg _ (linkTakesPixel_idle running small none)
  · refine ⟨_, (exec_linkTakesPixel k s).trans (congrArg _ (linkTakesPixel_black running small fresh black left)),
      onlyIn_updTile k _ s, otherTilesKept_updTile k s _, fun more => ?_, fun last => ?_⟩
    · rw [State.tile_updTile_same _ there, Link.sendBlack, if_pos more]
    · rw [State.tile_updTile_same _ there, Link.sendBlack, if_neg (Nat.not_lt_of_le last)]
  · have mixed := Engine.mixed_single (idle := s.prof.idleFill) (fade := (s.tile k).scan.fade) single
    have given := laneGives_take (fill e.main) e.sendRow e.sendCol e.main
    rw [single] at mixed
    obtain ⟨t, ran, sent⟩ := sendsMixed running small there fresh active left mixed (toNat_pos_iff _)
    exact ⟨t, _, _, _, ran, given, sent⟩
  · have mixed := Engine.mixed_fade (idle := s.prof.idleFill) (f := f) split
    have first := laneGives_take (fill o) e.sendRow e.sendCol o
    have second := laneGives_take (fill e.main) e.sendRow e.sendCol e.main
    rw [← fade] at mixed
    obtain ⟨t, ran, sent⟩ := sendsMixed running small there fresh active left mixed (underruns_iff _ _)
    exact ⟨t, _, _, _, _, _, _, ran, first, second, sent⟩

end Sys2Proof.Machine
end

section
/-! Profiles and settings images by their bytes (R163, R167, R169, R171). -/

set_option Elab.async false

namespace Sys2Proof.Machine

/-! ## Profiles (R167) -/

theorem ambientModeOf_eq_some (n : Nat) (mode : AmbientMode) :
    ambientModeOf n = some mode ↔ n = match mode with | .auto => 0 | .forceStreet => 1 | .forceDusk => 2 := by
  unfold ambientModeOf
  split <;> cases mode <;> simp_all

theorem profileOf_eq_some (b : List Byte) (p : Profile) : profileOf b = some p ↔ FieldsOf b p := by
  have pulse : decide (bitField (byteAt b 26) 0 1 = 1) = decide (byteAt b 26 % 2 = 1) := by rw [bitField_zero, pow_one]
  unfold profileOf
  rw [Option.map_eq_some_iff, pulse]
  constructor
  · rintro ⟨mode, known, rfl⟩
    exact ⟨rfl, rfl, rfl, rfl, rfl, rfl, rfl, rfl, (ambientModeOf_eq_some _ _).1 known, rfl, rfl, rfl, rfl, rfl, rfl,
      rfl, rfl, rfl, rfl⟩
  · intro fields
    obtain ⟨tiles, rate, lmax, grace, lateWindow, budget, plateTable, statusPage, mode, confirm, up, down, dusk,
      trigger, width, align, fill, sizes, block⟩ := p
    unfold FieldsOf at fields
    dsimp only at fields
    obtain ⟨rfl, rfl, rfl, rfl, rfl, rfl, rfl, rfl, code, rfl, rfl, rfl, rfl, rfl, rfl, rfl, rfl, rfl, rfl⟩ := fields
    exact ⟨mode, (ambientModeOf_eq_some _ _).2 code, rfl⟩

theorem Profile.size_of_fields {b : List Byte} {p : Profile} (fields : FieldsOf b p) : p.sizes.length = 16 := by
  obtain ⟨-, -, -, -, -, -, -, -, -, -, -, -, -, -, -, -, -, sizes, -⟩ := fields
  rw [sizes, List.length_map, List.length_range]

/-- The sizes of the tiles of a profile, as the list's first ones. -/
theorem take_sizes_all {p : Profile} (length : p.sizes.length = 16) (small : p.tiles ≤ 16) (f : Nat × Nat → Bool) :
    (p.sizes.take p.tiles).all f = true ↔ ∀ k, k < p.tiles → f (p.size k) = true := by
  rw [List.all_eq_true]
  constructor
  · intro all k there
    have inside : k < p.sizes.length := by omega
    refine all _ (List.mem_take_iff_getElem.2 ⟨k, by omega, ?_⟩)
    exact (List.getD_eq_getElem _ _ inside).symm
  · intro all x there
    obtain ⟨k, inside, rfl⟩ := List.mem_take_iff_getElem.1 there
    have := all k (by omega)
    rwa [Profile.size, List.getD_eq_getElem _ _ (by omega)] at this

theorem Profile.valid_iff {b : List Byte} {p : Profile} (fields : FieldsOf b p) : p.valid = true ↔ InRange p := by
  have length := Profile.size_of_fields fields
  have bytes : Config.showBytes = 0x20000000 := rfl
  have apart : ¬ (p.statusPage < p.plateTable + 8192 ∧ p.plateTable < p.statusPage + 4096) ↔
      p.plateTable + 8192 ≤ p.statusPage ∨ p.statusPage + 4096 ≤ p.plateTable := by omega
  unfold Profile.valid InRange
  simp only [Bool.and_eq_true, decide_eq_true_iff, Bool.not_eq_true', decide_eq_false_iff_not, bytes, apart, and_assoc]
  refine and_congr_right fun _ => and_congr_right fun high => and_congr_left' ?_
  rw [take_sizes_all length high]
  exact forall₂_congr fun _ _ => decide_eq_true_iff

theorem validProfileOf_eq_some (b : List Byte) (p : Profile) :
    validProfileOf b = some p ↔ FieldsOf b p ∧ InRange p := by
  rw [← profileOf_eq_some]
  unfold validProfileOf
  cases found : profileOf b with
  | none => simp
  | some q =>
    have fields := (profileOf_eq_some b q).1 found
    dsimp only
    by_cases good : q.valid = true
    · rw [if_pos good, Option.some_inj]
      exact ⟨fun same => ⟨same, same ▸ (q.valid_iff fields).1 good⟩, fun h => h.1⟩
    · rw [if_neg good, Option.some_inj]
      refine ⟨fun h => (nomatch h), fun ⟨same, range⟩ => ?_⟩
      rw [← same, ← Profile.valid_iff fields] at range
      exact absurd range good

theorem profileOfRecord_eq_some (r : List Byte) (p : Profile) :
    profileOfRecord r = some p ↔
      104 ≤ r.length ∧ leAt r 0 2 = 0x5AD1 ∧ FieldsOf ((r.drop 8).take 96) p ∧ InRange p := by
  rw [← validProfileOf_eq_some]
  unfold profileOfRecord
  by_cases bad : r.length < 104 ∨ leAt r 0 2 ≠ 0x5AD1
  · rw [if_pos bad]
    refine ⟨fun h => (nomatch h), fun ⟨whole, marker, _⟩ => ?_⟩
    rcases bad with short | other
    · omega
    · exact absurd marker other
  · rw [if_neg bad]
    push Not at bad
    exact ⟨fun h => ⟨bad.1, bad.2, h⟩, fun h => h.2.2⟩

/-! ## Images (R163) -/

theorem knownBytes_eq_some (image : List (Option Byte)) (bs : List Byte) :
    knownBytes image = some bs ↔ image = bs.map some := by
  induction image generalizing bs with
  | nil => cases bs <;> simp [knownBytes]
  | cons x rest ih =>
    cases x with
    | none => cases bs <;> simp [knownBytes]
    | some b =>
      rw [knownBytes, Option.map_eq_some_iff]
      constructor
      · rintro ⟨l, known, rfl⟩
        rw [(ih l).1 known]
        rfl
      · intro same
        cases bs with
        | nil => cases same
        | cons c l =>
          obtain ⟨first, rest⟩ := List.cons.inj same
          exact ⟨l, (ih l).2 rest, by rw [Option.some.inj first]⟩

theorem byteSum_toNat (bs : List Byte) : (byteSum bs).toNat = (bs.map (·.toNat)).sum % 256 := by
  have sum (l : List Byte) (a : Byte) : (l.foldl (· + ·) a).toNat = (a.toNat + (l.map (·.toNat)).sum) % 256 := by
    induction l generalizing a with
    | nil => exact (Nat.mod_eq_of_lt a.isLt).symm
    | cons b rest ih =>
      rw [List.foldl_cons, ih, List.map_cons, List.sum_cons, BitVec.toNat_add]
      omega
  refine (sum bs 0).trans ?_
  rw [show (0 : Byte).toNat = 0 from rfl, Nat.zero_add]

theorem map_byteAt_range {bs : List Byte} {n : Nat} (inside : n ≤ bs.length) :
    (List.range n).map (byteAt bs) = (bs.take n).map (·.toNat) := by
  refine List.ext_getElem (by simpa using inside) fun i h _ => ?_
  have here : i < n := by simpa using h
  rw [List.getElem_map, List.getElem_map, List.getElem_range, List.getElem_take, byteAt,
    List.getD_eq_getElem _ _ (by omega)]

theorem drop_take_all {l : List Byte} {o n : Nat} (inside : o + n ≤ l.length) (f : Byte → Bool) :
    ((l.drop o).take n).all f = true ↔ ∀ i, i < n → f (l.getD (o + i) 0) = true := by
  rw [List.all_eq_true]
  constructor
  · intro all i small
    have there : i < (l.drop o).length := by rw [List.length_drop]; omega
    refine all _ (List.mem_take_iff_getElem.2 ⟨i, by omega, ?_⟩)
    rw [List.getElem_drop, List.getD_eq_getElem _ _ (by omega)]
  · intro all x there
    obtain ⟨i, small, rfl⟩ := List.mem_take_iff_getElem.1 there
    rw [List.length_drop] at small
    rw [List.getElem_drop, ← List.getD_eq_getElem _ 0]
    exact all i (by omega)

theorem imageContent_eq_some (image : List (Option Byte)) (p : Profile) : imageContent image = some p ↔
    ∃ bs : List Byte, image = bs.map some ∧ bs.length = 512 ∧ byteAt bs 0 = 0xA5 ∧ byteAt bs 1 = 1 ∧
      byteAt bs 511 = ((List.range 511).map (byteAt bs)).sum % 256 ∧ (∀ i, i < 32 → byteAt bs (98 + i) ≤ 31) ∧
      FieldsOf ((bs.drop 2).take 96) p ∧ InRange p := by
  have checks (bs : List Byte) : (bs.length = Config.imageBytes ∧ bs.getD 0 0 = imageMarker ∧
      bs.getD 1 0 = imageVersion ∧ bs.getD 511 0 = byteSum (bs.take 511) ∧
      ((bs.drop 98).take 32).all (fun b => decide (b.toNat ≤ 31)) = true) ↔
      (bs.length = 512 ∧ byteAt bs 0 = 0xA5 ∧ byteAt bs 1 = 1 ∧
      byteAt bs 511 = ((List.range 511).map (byteAt bs)).sum % 256 ∧ ∀ i, i < 32 → byteAt bs (98 + i) ≤ 31) := by
    refine and_congr_right fun (length : bs.length = 512) => and_congr ?_ (and_congr ?_ (and_congr ?_ ?_))
    · exact BitVec.toNat_inj.symm
    · exact BitVec.toNat_inj.symm
    · rw [map_byteAt_range (by omega), ← byteSum_toNat]
      exact BitVec.toNat_inj.symm
    · rw [drop_take_all (by omega)]
      exact forall₂_congr fun i _ => decide_eq_true_iff
  unfold imageContent
  cases known : knownBytes image with
  | none =>
    refine ⟨fun h => (nomatch h), fun ⟨bs, same, _⟩ => ?_⟩
    cases known.symm.trans ((knownBytes_eq_some image bs).2 same)
  | some bs =>
    dsimp only
    have same := (knownBytes_eq_some image bs).1 known
    by_cases good : bs.length = Config.imageBytes ∧ bs.getD 0 0 = imageMarker ∧ bs.getD 1 0 = imageVersion ∧
      bs.getD 511 0 = byteSum (bs.take 511) ∧ ((bs.drop 98).take 32).all (fun b => decide (b.toNat ≤ 31)) = true
    · rw [if_pos good, validProfileOf_eq_some]
      obtain ⟨length, marker, version, sum, trims⟩ := (checks bs).1 good
      refine ⟨fun fields => ⟨bs, same, length, marker, version, sum, trims, fields⟩,
        fun ⟨bs', same', _, _, _, _, _, h⟩ => ?_⟩
      have equal : bs' = bs := Option.some.inj (((knownBytes_eq_some image bs').2 same').symm.trans known)
      rwa [equal] at h
    · rw [if_neg good]
      refine ⟨fun h => (nomatch h), fun ⟨bs', same', length, marker, version, sum, trims, _⟩ => ?_⟩
      have equal : bs' = bs := Option.some.inj (((knownBytes_eq_some image bs').2 same').symm.trans known)
      subst equal
      exact absurd ((checks bs').2 ⟨length, marker, version, sum, trims⟩) good

/-! ## The content of a profile write (R169) -/

theorem trimBytes_length (tiles : List Tile) : (trimBytes tiles).length = 2 * tiles.length := by
  rw [trimBytes]
  induction tiles with
  | nil => rfl
  | cons t rest ih =>
    rw [List.map_cons, List.flatten_cons, List.length_append, ih, List.length_cons]
    simp only [List.length_cons, List.length_nil]
    omega

theorem trimBytes_getD (tiles : List Tile) (k : Nat) {tile : Tile} (there : tiles[k]? = some tile) :
    (trimBytes tiles).getD (2 * k) 0 = BitVec.ofNat 8 tile.scan.street ∧
    (trimBytes tiles).getD (2 * k + 1) 0 = BitVec.ofNat 8 tile.scan.dusk := by
  induction tiles generalizing k with
  | nil => cases there
  | cons t rest ih =>
    have cons : trimBytes (t :: rest) =
        BitVec.ofNat 8 t.scan.street :: BitVec.ofNat 8 t.scan.dusk :: trimBytes rest := rfl
    rw [cons]
    cases k with
    | zero =>
      cases there
      exact ⟨rfl, rfl⟩
    | succ k => exact ih k there

theorem profileContent_spec {image : List (Option Byte)} {p : Profile} {tiles : List Tile} (size : image.length = 512)
    (block : p.block.length = 96) (count : tiles.length = 16) :
    let c := profileContent image p tiles
    c.length = 512 ∧ byteAt c 0 = 0xA5 ∧ byteAt c 1 = 1 ∧ (∀ i, i < 96 → c.getD (2 + i) 0 = p.block.getD i 0) ∧
    (∀ k tile, tiles[k]? = some tile → c.getD (98 + 2 * k) 0 = BitVec.ofNat 8 tile.scan.street ∧
      c.getD (99 + 2 * k) 0 = BitVec.ofNat 8 tile.scan.dusk) ∧
    ∀ i, 130 ≤ i → i ≤ 510 → c.getD i 0 = (image.getD i none).getD 0 := by
  have trims := trimBytes_length tiles
  rw [count] at trims
  have head : ([imageMarker, imageVersion] ++ p.block).length = 98 := by
    rw [List.length_append, block]
    rfl
  have start : ([imageMarker, imageVersion] ++ p.block ++ trimBytes tiles).length = 130 := by
    rw [List.length_append, head, trims]
  have second (j : Nat) (small : j < 32) :
      (profileContent image p tiles).getD (98 + j) 0 = (trimBytes tiles).getD j 0 := by
    rw [profileContent, List.getD_append _ _ _ _ (by rw [start]; omega),
      List.getD_append_right _ _ _ _ (by rw [head]; omega), head, Nat.add_sub_cancel_left]
  refine ⟨?_, rfl, rfl, fun i small => ?_, fun k tile there => ?_, fun i low high => ?_⟩
  · rw [profileContent, List.length_append, start, List.length_map, List.length_drop, size]
  · rw [profileContent, List.getD_append _ _ _ _ (by rw [start]; omega), List.getD_append _ _ _ _ (by rw [head]; omega),
      List.getD_append_right _ _ _ _ (Nat.le_add_right 2 i), show [imageMarker, imageVersion].length = 2 from rfl,
      Nat.add_sub_cancel_left]
  · have inside : k < 16 := by
      rw [← count]
      exact (List.getElem?_eq_some_iff.1 there).1
    obtain ⟨street, dusk⟩ := trimBytes_getD tiles k there
    refine ⟨(second (2 * k) (by omega)).trans street, ?_⟩
    rw [show 99 + 2 * k = 98 + (2 * k + 1) by omega]
    exact (second (2 * k + 1) (by omega)).trans dusk
  · rw [profileContent, List.getD_append_right _ _ _ _ (by rw [start]; exact low), start,
      List.getD_eq_getElem?_getD, List.getElem?_map, List.getElem?_drop, List.getD_eq_getElem?_getD,
      show 130 + (i - 130) = i by omega]
    cases image[i]? with
    | none => rfl
    | some x => rfl

/-! ## The byte writes of a new content (R171) -/

theorem mem_changedPositions (image : List (Option Byte)) (c : List Byte) (p : Nat) :
    p ∈ changedPositions image c ↔ 1 ≤ p ∧ p ≤ 510 ∧ image.getD p none ≠ some (c.getD p 0) := by
  rw [changedPositions, List.mem_filter, decide_eq_true_iff, List.mem_map, ← and_assoc]
  refine and_congr_left' ⟨fun ⟨i, there, same⟩ => ?_, fun ⟨low, high⟩ => ⟨p - 1, ?_, by omega⟩⟩
  · have := List.mem_range.1 there
    omega
  · exact List.mem_range.2 (by omega)

theorem changedPositions_ascending (image : List (Option Byte)) (c : List Byte) :
    (changedPositions image c).Pairwise (· < ·) := by
  refine List.Pairwise.filter _ (List.pairwise_map.2 ?_)
  exact List.pairwise_lt_range.imp fun h => Nat.succ_lt_succ h

theorem sum_take_toNat (l : List Byte) (n : Nat) :
    ((l.take n).map (·.toNat)).sum = ((List.range n).map (byteAt l)).sum := by
  induction l generalizing n with
  | nil =>
    rw [List.take_nil]
    exact (List.sum_eq_zero fun x there => by obtain ⟨_, -, rfl⟩ := List.mem_map.1 there; rfl).symm
  | cons b rest ih =>
    cases n with
    | zero => rfl
    | succ n =>
      rw [List.take_succ_cons, List.map_cons, List.sum_cons, ih, List.range_succ_eq_map, List.map_cons, List.sum_cons,
        List.map_map]
      rfl

theorem byteAt_drop (l : List Byte) (o i : Nat) : byteAt (l.drop o) i = byteAt l (o + i) := by
  rw [byteAt, byteAt, List.getD_eq_getElem?_getD, List.getD_eq_getElem?_getD, List.getElem?_drop]

theorem contentCheck_toNat (c : List Byte) :
    (contentCheck c).toNat = (0xA5 + ((List.range 510).map (fun i => byteAt c (1 + i))).sum) % 256 := by
  have sum := sum_take_toNat (c.drop 1) 510
  rw [List.map_congr_left fun i _ => byteAt_drop c 1 i] at sum
  rw [contentCheck, BitVec.toNat_add, byteSum_toNat, sum, Nat.add_mod_mod]
  rfl

theorem contentWrites_spec (image : List (Option Byte)) (c : List Byte) :
    let changed (p : Nat) : Prop := 1 ≤ p ∧ p ≤ 510 ∧ image.getD p none ≠ some (c.getD p 0)
    ((∀ p, ¬ changed p) → contentWrites image c = []) ∧
    ((∃ p, changed p) → ∃ (ps : List Nat) (check : Byte),
      contentWrites image c = (0, 0) :: ps.map (fun p => (p, c.getD p 0)) ++ [(511, check), (0, 0xA5)] ∧
      ps.Pairwise (· < ·) ∧ (∀ p, p ∈ ps ↔ changed p) ∧
      check.toNat = (0xA5 + ((List.range 510).map (fun i => byteAt c (1 + i))).sum) % 256) := by
  refine ⟨fun none => ?_, fun ⟨p, change⟩ => ⟨changedPositions image c, contentCheck c, ?_,
    changedPositions_ascending image c, mem_changedPositions image c, contentCheck_toNat c⟩⟩
  · have empty : changedPositions image c = [] :=
      List.eq_nil_iff_forall_not_mem.2 fun p there => none p ((mem_changedPositions image c p).1 there)
    rw [contentWrites, empty]
    rfl
  · have changed : changedPositions image c ≠ [] :=
      List.ne_nil_of_mem ((mem_changedPositions image c p).2 change)
    rw [contentWrites, if_neg changed, imageMarker]

end Sys2Proof.Machine
end

section
/-! Frame 0 (R1, R12, R138, R151, R157, R158, R165, R182). -/

set_option Elab.async false

namespace Sys2Proof.Machine

/-! ## Polling begins (R151, R157) -/

/-- The Ambient Unit as polling begins with its first read. -/
def AmbientUnit.polled (a : AmbientUnit) : AmbientUnit := { a with polling := true, inFlight := some 0 }

theorem beginPolling_dusk {s : State} (mode : s.prof.ambientMode = .forceDusk) :
    beginPolling s = changeAmbient (s.setAmbient s.ambient.polled) := by
  rw [beginPolling, mode]
  rfl

theorem beginPolling_other {s : State} (mode : s.prof.ambientMode ≠ .forceDusk) :
    beginPolling s = s.setAmbient s.ambient.polled := by
  unfold beginPolling
  split
  · next dusk => exact absurd dusk mode
  · rfl
  · rfl

theorem changeAmbient_tile_gains (s : State) (k : Nat) : (s.tile k).Gains ((changeAmbient s).tile k) := by
  have flagged (x : AmbientUnit) : (raise .ambient (s.setAmbient x)).tile k = s.tile k := rfl
  rw [← flagged { s.ambient with level := s.ambient.level.other, confirm := 0 }]
  exact requestLevel_tile_gains _ _ k

theorem beginPolling_tile_gains (s : State) (k : Nat) : (s.tile k).Gains ((beginPolling s).tile k) := by
  by_cases mode : s.prof.ambientMode = .forceDusk
  · rw [beginPolling_dusk mode]
    exact changeAmbient_tile_gains (s.setAmbient s.ambient.polled) k
  · rw [beginPolling_other mode]
    exact .refl _

theorem beginPolling_length (s : State) : (beginPolling s).tiles.length = s.tiles.length := by
  by_cases mode : s.prof.ambientMode = .forceDusk
  · rw [beginPolling_dusk mode]
    exact requestLevel_length _ _
  · rw [beginPolling_other mode]
    rfl

theorem levelOnly_beginPolling (s : State) : LevelOnly s (beginPolling s) := by
  by_cases mode : s.prof.ambientMode = .forceDusk
  · rw [beginPolling_dusk mode]
    exact (onlyIn_setAmbient s _).levelOnly.trans (levelOnly_changeAmbient _)
  · rw [beginPolling_other mode]
    exact (onlyIn_setAmbient s _).levelOnly

theorem beginPolling_ambient (s : State) : (beginPolling s).ambient = { s.ambient.polled with
    level := (beginPolling s).ambient.level, confirm := (beginPolling s).ambient.confirm } := by
  by_cases mode : s.prof.ambientMode = .forceDusk
  · obtain ⟨ambient, -⟩ := changeAmbient_spec (s.setAmbient s.ambient.polled)
    rw [beginPolling_dusk mode, ambient]
    rfl
  · rw [beginPolling_other mode]
    rfl

/-! ## The first and the last part of frame 0 -/

/-- What frame 0 has done before polling begins: the beat at frame 0, the links of the profile's tiles training. -/
structure FrameZeroBegun (p : Profile) (s u : State) : Prop where
  prof : u.prof = p
  ftg : u.ftg = begunFtg s
  ambient : u.ambient = s.ambient
  commit : u.commit = s.commit
  report : u.report = s.report
  scheduler : u.scheduler = s.scheduler
  follower : u.follower = s.follower
  result : u.store.result = s.store.result
  flag : u.flag .ambient = s.flag .ambient
  length : u.tiles.length = s.tiles.length
  switches : ∀ k, (u.tile k).switches = (s.tile k).switches
  training : ∀ k, k < p.tiles → k < s.tiles.length →
    (u.tile k).link.state = .training ∧ (u.tile k).link.timer = 0 ∧ (u.tile k).link.header = some ⟨0, true⟩ ∧
    (u.tile k).link.startState = .training

/-- What frame 0 does once polling has begun: the refresh, the engines, and the records of the command. -/
structure FrameZeroEnded (v t : State) : Prop where
  ftg : t.ftg = v.ftg
  ambient : t.ambient = v.ambient
  commit : t.commit = v.commit
  follower : t.follower = v.follower
  wall : t.window.wall = v.window.wall
  flag : t.flag .ambient = v.flag .ambient
  report : t.report = { (takeRefresh v).report with resultNew := t.report.resultNew }
  length : t.tiles.length = v.tiles.length
  tile : ∀ k, (t.tile k).link = (v.tile k).link ∧ (t.tile k).scan = (v.tile k).scan ∧
    (t.tile k).switches = (v.tile k).switches ∧ (t.tile k).engine.underruns = (v.tile k).engine.underruns
  active : ∀ k, k < v.tiles.length → (t.tile k).engine.active = (v.tile k).link.startState.carries

theorem State.openPlaces_congr {s t : State} (report : t.report = s.report) (scheduler : t.scheduler = s.scheduler)
    (follower : t.follower = s.follower) (handoff : t.commit.handoff = s.commit.handoff)
    (attempt : t.commit.attempt = s.commit.attempt) : t.openPlaces = s.openPlaces := by
  have reserved : t.reservedPlaces = s.reservedPlaces := by
    unfold State.reservedPlaces
    rw [follower, attempt]
  rw [State.openPlaces, State.placesForHandoff, State.placesForHold, State.departingCount, State.freePlaces, handoff,
    report, scheduler, reserved]
  rfl

section
variable {p : Profile} {s u v t : State} (begun : FrameZeroBegun p s u) (polled : v = beginPolling u)
  (ended : FrameZeroEnded v t)
include begun polled

theorem FrameZeroBegun.openPlaces : v.openPlaces = s.openPlaces := by
  subst polled
  have only := onlyIn_beginPolling u
  have level := levelOnly_beginPolling u
  generalize beginPolling u = v at *
  have handoff : v.commit.handoff = u.commit.handoff := (congrArg CommitUnit.handoff level).trans rfl
  have attempt : v.commit.attempt = u.commit.attempt := (congrArg CommitUnit.attempt level).trans rfl
  exact State.openPlaces_congr (only.report.trans begun.report) (only.scheduler.trans begun.scheduler)
    (only.follower.trans begun.follower) (handoff.trans (by rw [begun.commit])) (attempt.trans (by rw [begun.commit]))

include ended

theorem FrameZeroBegun.refresh :
    (s.openPlaces = 0 → t.report.queue = s.report.queue ∧ t.report.skipped = s.report.skipped + 1 ∧
      t.report.tagNew = s.report.tagNew) ∧
    (0 < s.openPlaces → ∃ g,
      t.report.queue = s.report.queue ++ [.refresh g 0 s.report.tagNew s.report.resultNew] ∧
      t.report.skipped = s.report.skipped ∧ t.report.tagNew = false ∧
      PageHolds g t ∧ g.follower = s.follower.state ∧ g.result = s.store.result) := by
  have places := begun.openPlaces polled
  have report := ended.report
  have only := onlyIn_beginPolling u
  rw [← polled] at only
  have before := only.report.trans begun.report
  refine ⟨fun full => ?_, fun room => ⟨pageSnapshot v, ?_⟩⟩
  · rw [takeRefresh_full (places.trans full), before] at report
    rw [report]
    exact ⟨rfl, rfl, rfl⟩
  · rw [← places] at room
    rw [takeRefresh_open room, before] at report
    have holds : PageHolds (pageSnapshot v) t := by
      refine pageHolds_pageSnapshot (congrArg Ftg.frame ended.ftg) ended.wall (congrArg Follower.follow ended.follower)
        (congrArg Ftg.clock ended.ftg) ended.ambient ?_ (congrArg CommitUnit.showing ended.commit) ended.length
        fun k => ?_
      · rw [report, before]
        exact ⟨rfl, rfl, rfl⟩
      · obtain ⟨link, scan, -, underruns⟩ := ended.tile k
        exact ⟨link, underruns, scan⟩
    rw [report]
    refine ⟨rfl, rfl, rfl, holds, ?_, ?_⟩
    · show v.follower.state = _
      rw [only.follower, begun.follower]
    · show v.store.result = _
      rw [only.store, begun.result]

theorem FrameZeroBegun.quiet (mode : p.ambientMode ≠ .forceDusk) :
    t.ambient.level = s.ambient.level ∧ t.ambient.confirm = s.ambient.confirm ∧ t.commit = s.commit ∧
    t.flag .ambient = s.flag .ambient ∧ ∀ k, (t.tile k).switches = (s.tile k).switches := by
  have same : v = u.setAmbient u.ambient.polled := by
    rw [polled]
    exact beginPolling_other (by rw [begun.prof]; exact mode)
  rw [ended.ambient, ended.commit, ended.flag, same]
  refine ⟨?_, ?_, begun.commit, begun.flag, fun k => ?_⟩
  · show u.ambient.level = _
    rw [begun.ambient]
  · show u.ambient.confirm = _
    rw [begun.ambient]
  · obtain ⟨-, -, switches, -⟩ := ended.tile k
    rw [switches, same]
    exact begun.switches k

theorem FrameZeroBegun.dusk (mode : p.ambientMode = .forceDusk) (street : s.ambient.level = .street) :
    let room := ∀ k, k < p.tiles → (s.tile k).switches.countP (fun sw => sw.frame != 0) < 16
    t.ambient.level = .dusk ∧ t.ambient.confirm = 0 ∧ t.flag .ambient = true ∧
    (room → t.commit = { s.commit with levelRequest := none, commitCount := s.commit.commitCount + 1 } ∧
      ∀ k, k < p.tiles → k < s.tiles.length → ⟨1, .level .dusk⟩ ∈ (t.tile k).switches) ∧
    (¬ room → t.commit = { s.commit with levelRequest := some ⟨.dusk, p.lmax + 1⟩ } ∧
      ∀ k, (t.tile k).switches = (s.tile k).switches) := by
  have changed : v = changeAmbient (u.setAmbient u.ambient.polled) := by
    rw [polled]
    exact beginPolling_dusk (by rw [begun.prof]; exact mode)
  obtain ⟨ambient, flag, placed, waits⟩ := changeAmbient_spec (u.setAmbient u.ambient.polled)
  rw [← changed] at ambient flag placed waits
  have prof : (u.setAmbient u.ambient.polled).prof = p := begun.prof
  have now : (u.setAmbient u.ambient.polled).now = 0 := congrArg Ftg.frame begun.ftg
  have horizon : (u.setAmbient u.ambient.polled).horizon = p.lmax + 1 := by rw [State.horizon, prof]
  have other : (u.setAmbient u.ambient.polled).ambient.level.other = .dusk := by
    show u.ambient.level.other = .dusk
    rw [begun.ambient, street]
    rfl
  have tile (k : Nat) : (u.setAmbient u.ambient.polled).tile k = u.tile k := rfl
  have commit : (u.setAmbient u.ambient.polled).commit = s.commit := begun.commit
  have length : (u.setAmbient u.ambient.polled).tiles.length = s.tiles.length := begun.length
  simp only [prof, now, horizon, other, tile, commit, length, begun.switches, Nat.zero_add] at ambient placed waits
  have switches (k : Nat) : (t.tile k).switches = (v.tile k).switches := by
    obtain ⟨-, -, switches, -⟩ := ended.tile k
    exact switches
  rw [ended.ambient, ended.commit, ended.flag, ambient]
  refine ⟨rfl, rfl, flag, fun room => ?_, fun full => ?_⟩
  · obtain ⟨same, lists⟩ := placed room
    refine ⟨same, fun k small there => ?_⟩
    obtain ⟨training, -⟩ := begun.training k small there
    have quiet : (u.tile k).link.latency = none := Link.latency_of_quiet (by rw [training]; rfl)
    have mem := Tile.mem_placed (p.lmax + 1) (.level .dusk) p (u.tile k)
    rw [quiet, Option.getD_none, Nat.add_sub_cancel_left] at mem
    rw [switches, lists k small there]
    exact mem
  · obtain ⟨same, request⟩ := waits full
    refine ⟨request, fun k => ?_⟩
    rw [switches, State.tile_of_tiles same]
    exact begun.switches k

/-- The frame start of frame 0, from its two parts and the beginning of polling between them. -/
theorem FrameZeroBegun.taken : FrameZeroTaken p s t := by
  have only := onlyIn_beginPolling u
  rw [← polled] at only
  obtain ⟨full, room⟩ := begun.refresh polled ended
  have ambient := beginPolling_ambient u
  rw [← polled, begun.ambient] at ambient
  refine ⟨?_, fun k small there => ?_, ?_, ?_, full, room, begun.quiet polled ended, begun.dusk polled ended⟩
  · rw [ended.ftg, only.ftg, begun.ftg]
    rfl
  · obtain ⟨state, timer, header, startState⟩ := begun.training k small there
    obtain ⟨link, -⟩ := ended.tile k
    have gains := beginPolling_tile_gains u k
    rw [← polled] at gains
    have same : (v.tile k).link = (u.tile k).link := (congrArg Tile.link gains.rest).trans rfl
    have length : v.tiles.length = s.tiles.length := by rw [polled, beginPolling_length, begun.length]
    rw [ended.active k (by rw [length]; exact there), link, same, startState]
    exact ⟨state, timer, header, rfl⟩
  · rw [ended.ambient, ambient]
    rfl
  · rw [ended.ambient, ambient]
    rfl

end

/-! ## Adoption (R165) -/

/-- A link that begins training in frame 0 (R138). -/
def Tile.begun (t : Tile) : Tile :=
  { t with link := { (t.link.toTraining.sendHeader 0) with echoes := [], stepped := false } }

/-- The state of an adoption before polling begins. -/
def adopted (p : Profile) (s : State) : State :=
  let entered := (s.setProfile (some p)).setWindow { s.window with wall := .standby }
  forTiles p.tiles beginLink (entered.setFtg (begunFtg entered))

theorem adopt_eq (p : Profile) (s : State) :
    adopt p s = prepareEngines (takeRefresh (beginPolling (adopted p s))) := rfl

theorem adopted_length (p : Profile) (s : State) : (adopted p s).tiles.length = s.tiles.length :=
  forTiles_length (fun k u => otherTilesKept_updTile k u _) _ _

theorem adopted_tile (p : Profile) {s : State} {k : Nat} (small : k < p.tiles) (there : k < s.tiles.length) :
    (adopted p s).tile k = (s.tile k).begun :=
  forTiles_updTile_tile (g := fun _ t => t.begun) small there

theorem adopted_tile_rest (p : Profile) (s : State) (k : Nat) :
    (adopted p s).tile k = { s.tile k with link := ((adopted p s).tile k).link } := by
  by_cases there : k < s.tiles.length
  · by_cases small : k < p.tiles
    · rw [adopted_tile p small there]
      rfl
    · have same : (adopted p s).tile k = s.tile k :=
        forTiles_tile_of_le (fun j u => otherTilesKept_updTile j u _) _ (Nat.le_of_not_lt small)
      rw [same]
  · have past := Nat.le_of_not_lt there
    rw [State.tile_of_length_le (by rw [adopted_length]; exact past), State.tile_of_length_le past]

theorem frameZeroBegun_adopted (p : Profile) (s : State) : FrameZeroBegun p s (adopted p s) := by
  have only := onlyIn_forTiles p.tiles beginLink onlyIn_beginLink
    (((s.setProfile (some p)).setWindow { s.window with wall := .standby }).setFtg
      (begunFtg ((s.setProfile (some p)).setWindow { s.window with wall := .standby })))
  refine ⟨only.prof, only.ftg, only.ambient, only.commit, only.report, only.scheduler, only.follower,
    congrArg Store.result only.store, (State.flag_of_window only.window _).trans rfl, adopted_length p s, fun k => ?_,
    fun k small there => ?_⟩
  · rw [adopted_tile_rest]
  · rw [adopted_tile p small there]
    exact ⟨rfl, rfl, rfl, rfl⟩

theorem frameZeroEnded_prepared (v : State) : FrameZeroEnded v (prepareEngines (takeRefresh v)) := by
  have only := onlyIn_takeRefresh v
  have engines := onlyIn_prepareEngines (takeRefresh v)
  have tiles := only.tiles
  have length : (takeRefresh v).tiles.length = v.tiles.length := by rw [tiles]
  refine ⟨engines.ftg.trans only.ftg, engines.ambient.trans only.ambient, engines.commit.trans only.commit,
    engines.follower.trans only.follower, by rw [engines.window, only.window], ?_, by rw [engines.report],
    by rw [prepareEngines_length, length], fun k => ?_, fun k there => ?_⟩
  · exact State.flag_of_window (engines.window.trans only.window) _
  · by_cases there : k < v.tiles.length
    · rw [prepareEngines_tile (by rw [length]; exact there), State.tile_of_tiles tiles]
      exact ⟨rfl, rfl, rfl, rfl⟩
    · have past := Nat.le_of_not_lt there
      rw [State.tile_of_length_le (by rw [prepareEngines_length, length]; exact past), State.tile_of_length_le past]
      exact ⟨rfl, rfl, rfl, rfl⟩
  · rw [prepareEngines_tile (by rw [length]; exact there), State.tile_of_tiles tiles]
    rfl

/-- The records of the command and the job that follow an adoption change nothing of frame 0. -/
theorem FrameZeroEnded.after {v t w : State} (h : FrameZeroEnded v t) (only : OnlyIn [.store, .report, .window] t w)
    (wall : w.window.wall = t.window.wall) (flag : w.flag .ambient = t.flag .ambient)
    (report : w.report = { t.report with resultNew := w.report.resultNew }) : FrameZeroEnded v w := by
  refine ⟨only.ftg.trans h.ftg, only.ambient.trans h.ambient, only.commit.trans h.commit,
    only.follower.trans h.follower, wall.trans h.wall, flag.trans h.flag, ?_, by rw [only.tiles, h.length], fun k => ?_,
    fun k there => ?_⟩
  · rw [report, h.report]
  · rw [State.tile_of_tiles only.tiles]
    exact h.tile k
  · rw [State.tile_of_tiles only.tiles]
    exact h.active k there

/-- What precedes an adoption: the settings image's codes or the end of ADOPT_PROFILE's read. -/
theorem FrameZeroBegun.before {p : Profile} {s r u : State} (h : FrameZeroBegun p r u)
    (only : OnlyIn [.store, .window, .tiles] s r) (result : r.store.result = s.store.result)
    (flag : r.flag .ambient = s.flag .ambient) (length : r.tiles.length = s.tiles.length)
    (switches : ∀ k, (r.tile k).switches = (s.tile k).switches) : FrameZeroBegun p s u := by
  refine ⟨h.prof, ?_, h.ambient.trans only.ambient, h.commit.trans only.commit, h.report.trans only.report,
    h.scheduler.trans only.scheduler, h.follower.trans only.follower, h.result.trans result, h.flag.trans flag,
    h.length.trans length, fun k => (h.switches k).trans (switches k), fun k small there => ?_⟩
  · rw [h.ftg, begunFtg, begunFtg, only.ftg, only.pins]
  · exact h.training k small (by rw [length]; exact there)

theorem adopt_taken (p : Profile) (s : State) : FrameZeroEnded (beginPolling (adopted p s)) (adopt p s) :=
  frameZeroEnded_prepared _

theorem beginPolling_window (s : State) : (beginPolling s).window.wall = s.window.wall ∧
    (beginPolling s).window.main = s.window.main ∧ (beginPolling s).window.adoption = s.window.adoption := by
  by_cases mode : s.prof.ambientMode = .forceDusk
  · have requested := onlyIn_requestLevel s.ambient.polled.level.other
      (raise .ambient (s.setAmbient { s.ambient.polled with level := s.ambient.polled.level.other, confirm := 0 }))
    have window := requested.window
    rw [beginPolling_dusk mode]
    exact ⟨(congrArg Window.wall window).trans (raise_wall _ _), (congrArg Window.main window).trans (raise_main _ _),
      (congrArg Window.adoption window).trans (raise_adoption _ _)⟩
  · rw [beginPolling_other mode]
    exact ⟨rfl, rfl, rfl⟩

/-- What an adoption leaves of the profile, the window, the store and the tiles' scan contexts (R165). -/
structure Adopted (p : Profile) (s t : State) : Prop where
  profile : t.profile = some p
  wall : t.window.wall = .standby
  main : t.window.main = s.window.main
  adoption : t.window.adoption = s.window.adoption
  store : t.store = s.store
  resultNew : 0 < s.openPlaces → t.report.resultNew = false
  length : t.tiles.length = s.tiles.length
  scan : ∀ k, (t.tile k).scan = (s.tile k).scan

theorem adopted_adopt (p : Profile) (s : State) : Adopted p s (adopt p s) := by
  have begun := frameZeroBegun_adopted p s
  have polled := onlyIn_beginPolling (adopted p s)
  have places := begun.openPlaces rfl
  have length := beginPolling_length (adopted p s)
  have gains := beginPolling_tile_gains (adopted p s)
  obtain ⟨wall, main, adoption⟩ := beginPolling_window (adopted p s)
  have started := onlyIn_forTiles p.tiles beginLink onlyIn_beginLink
    (((s.setProfile (some p)).setWindow { s.window with wall := .standby }).setFtg
      (begunFtg ((s.setProfile (some p)).setWindow { s.window with wall := .standby })))
  have ended := frameZeroEnded_prepared (beginPolling (adopted p s))
  have refreshed := onlyIn_takeRefresh (beginPolling (adopted p s))
  have engines := onlyIn_prepareEngines (takeRefresh (beginPolling (adopted p s)))
  have before : (adopted p s).window = { s.window with wall := .standby } := started.window
  rw [← adopt_eq] at ended engines
  have window : (adopt p s).window = (beginPolling (adopted p s)).window := engines.window.trans refreshed.window
  refine ⟨?_, ended.wall.trans (wall.trans (by rw [before])), ?_, ?_, (onlyIn_adopt p s).store, fun room => ?_, ?_,
    fun k => ?_⟩
  · rw [engines.profile, refreshed.profile, polled.profile]
    exact started.profile
  · rw [window, main, before]
  · rw [window, adoption, before]
  · rw [engines.report, takeRefresh_open (by rw [places]; exact room)]
  · rw [ended.length, length, adopted_length]
  · obtain ⟨-, scan, -⟩ := ended.tile k
    rw [scan, (gains k).rest, adopted_tile_rest]

/-! ## Loading (R164) -/

theorem loadTrims_length (image : List (Option Byte)) (s : State) : (loadTrims image s).tiles.length = s.tiles.length :=
  List.length_mapIdx

theorem loadTrims_tile (image : List (Option Byte)) {s : State} {k : Nat} (there : k < s.tiles.length) :
    (loadTrims image s).tile k = { s.tile k with scan := { (s.tile k).scan with
      street := (imageByte image (streetPosition k)).toNat, dusk := (imageByte image (duskPosition k)).toNat } } := by
  have before : s.tile k = s.tiles[k] := List.getD_eq_getElem _ _ there
  rw [before]
  refine (List.getD_eq_getElem _ _ (by rwa [loadTrims_length])).trans ?_
  exact List.getElem_mapIdx ..

theorem loadTrims_switches (image : List (Option Byte)) (s : State) (k : Nat) :
    ((loadTrims image s).tile k).switches = (s.tile k).switches := by
  by_cases there : k < s.tiles.length
  · rw [loadTrims_tile image there]
  · have past := Nat.le_of_not_lt there
    rw [State.tile_of_length_le (by rw [loadTrims_length]; exact past), State.tile_of_length_le past]

theorem readImage_getElem (eeprom : List Byte) (unread : List Nat) (i : Nat) {b : Byte} (there : eeprom[i]? = some b) :
    (readImage eeprom unread)[i]? = some (if unread.contains i then none else some b) := by
  rw [readImage, List.getElem?_mapIdx, there]
  rfl

theorem exec_loadingEnd (unread : List Nat) (s : State) :
    exec (.loadingEnd unread) s = .next (loadingEnd unread s) := rfl

/-- The store once its image has been read (R164). -/
def Store.loaded (image : List (Option Byte)) (c : Store) : Store :=
  { c with state := .idle, image := image, valid := (imageContent image).isSome }

section
variable {unread : List Nat} {s : State} (wall : s.window.wall = .loading) (state : s.store.state = .loading)
include wall state

theorem loadingEnd_valid {p : Profile} (valid : imageContent (readImage s.store.eeprom unread) = some p) :
    loadingEnd unread s = adopt p (loadTrims (readImage s.store.eeprom unread)
      (s.setStore (s.store.loaded (readImage s.store.eeprom unread)))) := by
  rw [loadingEnd, if_pos ⟨wall, state⟩]
  dsimp only
  rw [valid]
  dsimp only
  rw [Store.loaded, valid]

theorem loadingEnd_invalid (invalid : imageContent (readImage s.store.eeprom unread) = none) :
    loadingEnd unread s = (s.setStore (s.store.loaded (readImage s.store.eeprom unread))).setWindow
      { s.window with wall := .awaitProfile } := by
  rw [loadingEnd, if_pos ⟨wall, state⟩]
  dsimp only
  rw [invalid]
  dsimp only
  rw [Store.loaded, invalid]
  rfl

end

/-- Settles O22. -/
theorem loadingEndAdoptsOrAwaits : Obligations.LoadingEndAdoptsOrAwaits := by
  refine ⟨imageContent_eq_some, fun eeprom unread i b => readImage_getElem eeprom unread i,
    fun unread s wall state => ⟨fun p valid => ?_, fun invalid => ?_⟩⟩
  · set image := readImage s.store.eeprom unread with read
    set r := loadTrims image (s.setStore (s.store.loaded image)) with hr
    have loaded := loadingEnd_valid wall state valid
    have only : OnlyIn [.store, .window, .tiles] s r :=
      ((onlyIn_setStore s _).mono (by decide)).trans ((onlyIn_loadTrims image _).mono (by decide))
    have length : r.tiles.length = s.tiles.length := loadTrims_length image _
    have begun := (frameZeroBegun_adopted p r).before only rfl rfl length (loadTrims_switches image _)
    have done := adopted_adopt p r
    refine ⟨adopt p r, (exec_loadingEnd unread s).trans (congrArg _ loaded), done.profile, done.wall, ?_, ?_, ?_,
      begun.taken rfl (adopt_taken p r), ?_, fun k there => ?_, ?_⟩
    · rw [done.store]
      rfl
    · rw [done.store]
      exact congrArg Option.isSome valid
    · rw [done.store]
      rfl
    · intro room
      refine done.resultNew ?_
      rw [State.openPlaces_congr only.report only.scheduler only.follower (by rw [only.commit]) (by rw [only.commit])]
      exact room
    · rw [done.scan, hr, loadTrims_tile image (s := s.setStore (s.store.loaded image)) there]
      exact ⟨rfl, rfl⟩
    · exact (only.mono (by decide)).trans ((onlyIn_adopt p r).mono (by decide))
  · have loaded := loadingEnd_invalid wall state invalid
    refine ⟨_, (exec_loadingEnd unread s).trans (congrArg _ loaded), rfl, ?_,
      ((onlyIn_setStore s _).mono (by decide)).trans ((onlyIn_setWindow _ _).mono (by decide))⟩
    show s.store.loaded _ = _
    rw [Store.loaded, invalid]
    rfl

end Sys2Proof.Machine
end

section
/-! ADOPT_PROFILE's record judged (R168, R169). -/

set_option Elab.async false

namespace Sys2Proof.Machine

theorem Window.finish_attn (c : Command) (r : Result) (w : Window) : (w.finish c r).attn = w.attn := by
  unfold Window.finish
  split
  · split <;> rfl
  · rfl

/-- The trim codes of a profile write are those the tiles hold. -/
theorem profileContent_congr (image : List (Option Byte)) (p : Profile) {l l' : List Tile}
    (length : l.length = l'.length) (scan : ∀ k, (l.getD k .reset).scan = (l'.getD k .reset).scan) :
    profileContent image p l = profileContent image p l' := by
  have same : l.map (·.scan) = l'.map (·.scan) := by
    refine List.ext_getElem (by rw [List.length_map, List.length_map, length]) fun k here there => ?_
    rw [List.length_map] at here there
    have at_k := scan k
    rw [List.getElem_map, List.getElem_map, ← List.getD_eq_getElem _ .reset here, ← List.getD_eq_getElem _ .reset there,
      at_k]
  have trims : trimBytes l = trimBytes l' := by
    have bytes (t : List Tile) : trimBytes t =
        ((t.map (·.scan)).map (fun c => [BitVec.ofNat 8 c.street, BitVec.ofNat 8 c.dusk])).flatten := by
      rw [List.map_map]
      rfl
    rw [bytes, bytes, same]
  rw [profileContent, profileContent, trims]

theorem exec_profileRecordReadDone (s : State) :
    exec .profileRecordReadDone s = .next (profileReadDone s) := rfl

section
variable {a : Adoption} {r : List Byte} {s : State} (work : s.window.adoption = some a) (phase : a.phase = .granted r)
include work phase

theorem profileReadDone_refused (bad : profileOfRecord r = none) :
    profileReadDone s =
      s.setWindow ({ s.window with adoption := none }.finish .adoptProfile .refusedInvalid) := by
  rw [profileReadDone, work]
  dsimp only
  rw [phase]
  dsimp only
  rw [bad]
  rfl

theorem profileReadDone_adopts {p : Profile} (good : profileOfRecord r = some p) :
    profileReadDone s = adoptRecord p a.persist (s.setWindow { s.window with adoption := none }) := by
  rw [profileReadDone, work]
  dsimp only
  rw [phase]
  dsimp only
  rw [good]

end

/-- What follows an adoption from a record: the result, or the profile write placed in the job slot. -/
theorem adoptRecord_now (p : Profile) (s : State) :
    adoptRecord p false s = (adopt p s).setWindow ((adopt p s).window.finish .adoptProfile .accepted) := rfl

theorem adoptRecord_persist (p : Profile) (s : State) :
    adoptRecord p true s = placeJob .profile
      (contentWrites (adopt p s).store.image (profileContent (adopt p s).store.image p (adopt p s).tiles))
      (adopt p s) := by
  rw [adoptRecord, if_pos rfl]

theorem placeJob_none {kind : JobKind} {writes : List (Nat × Byte)} (none : writes = []) (s : State) :
    placeJob kind writes s = endJob kind .done s := if_pos none

theorem placeJob_some {kind : JobKind} {writes : List (Nat × Byte)} (some : writes ≠ []) (s : State) :
    placeJob kind writes s = s.setStore { s.store with job := .some ⟨kind, writes⟩, state := .writing } := if_neg some

theorem Window.finish_busy {c : Command} {r : Result} {w : Window} (h : w.main = some ⟨c.code, .busy⟩) :
    w.finish c r = { w with main := some ⟨c.code, r⟩ } := by
  rw [Window.finish, h]
  exact if_pos ⟨rfl, rfl⟩

/-- The records of an adoption from a record leave what frame 0 has done. -/
structure Recorded (t w : State) : Prop where
  only : OnlyIn [.store, .report, .window] t w
  wall : w.window.wall = t.window.wall
  adoption : w.window.adoption = t.window.adoption
  attn : w.window.attn = t.window.attn
  report : w.report = { t.report with resultNew := w.report.resultNew }

theorem recorded_finish (c : Command) (r : Result) (s : State) : Recorded s (s.setWindow (s.window.finish c r)) :=
  ⟨(onlyIn_setWindow s _).mono (by decide), s.window.finish_wall c r, s.window.finish_adoption c r,
    s.window.finish_attn c r, rfl⟩

theorem recorded_placeJob (writes : List (Nat × Byte)) (s : State) : Recorded s (placeJob .profile writes s) := by
  have only : OnlyIn [.store, .report, .window] s (placeJob .profile writes s) := onlyIn_placeJob _ _ s
  by_cases none : writes = []
  · rw [placeJob_none none] at only ⊢
    exact ⟨only, Window.finish_wall _ _ _, Window.finish_adoption _ _ _, Window.finish_attn _ _ _, rfl⟩
  · rw [placeJob_some none] at only ⊢
    exact ⟨only, rfl, rfl, rfl, rfl⟩

theorem recorded_adoptRecord (p : Profile) (persist : Bool) (s : State) :
    Recorded (adopt p s) (adoptRecord p persist s) := by
  cases persist with
  | false => exact recorded_finish _ _ _
  | true =>
    rw [adoptRecord_persist]
    exact recorded_placeJob _ _

theorem FrameZeroEnded.recorded {v t w : State} (h : FrameZeroEnded v t) (done : Recorded t w) : FrameZeroEnded v w :=
  h.after done.only done.wall (by rw [State.flag, State.flag, done.attn]) done.report

/-- Settles O24. -/
theorem profileRecordIsJudged : Obligations.ProfileRecordIsJudged := by
  refine ⟨profileOfRecord_eq_some, fun image p tiles => profileContent_spec, contentWrites_spec,
    fun a r s work phase busy => ?_⟩
  cases judged : profileOfRecord r with
  | none =>
    refine ⟨_, (exec_profileRecordReadDone s).trans (congrArg _ (profileReadDone_refused work phase judged)), ?_,
      fun _ => ⟨?_, onlyIn_setWindow s _⟩, fun p good => nomatch good⟩
    · exact Window.finish_adoption _ _ _
    · exact Window.finish_busy (c := .adoptProfile) busy
  | some p =>
    set u := s.setWindow { s.window with adoption := none } with hu
    have only : OnlyIn [.window] s u := onlyIn_setWindow s _
    have begun : FrameZeroBegun p s (adopted p u) :=
      (frameZeroBegun_adopted p u).before (only.mono (by decide)) rfl rfl rfl fun _ => rfl
    have done := adopted_adopt p u
    have recorded := recorded_adoptRecord p a.persist u
    have main : (adopt p u).window.main = some ⟨1, .busy⟩ := done.main.trans busy
    refine ⟨adoptRecord p a.persist u,
      (exec_profileRecordReadDone s).trans (congrArg _ (profileReadDone_adopts work phase judged)), ?_,
      fun bad => (nomatch bad), fun q same => ?_⟩
    · rw [recorded.adoption, done.adoption]
      rfl
    · obtain rfl := Option.some.inj same
      refine ⟨?_, recorded.wall.trans done.wall, begun.taken rfl ((adopt_taken p u).recorded recorded), fun k => ?_,
        fun now => ?_, fun persist => ?_, ?_⟩
      · rw [recorded.only.profile, done.profile]
      · rw [State.tile_of_tiles recorded.only.tiles, done.scan]
        exact ⟨rfl, rfl⟩
      · rw [now, adoptRecord_now]
        exact ⟨Window.finish_main (c := .adoptProfile) main, done.store, fun room => done.resultNew room⟩
      · have content : profileContent s.store.image p (adopt p u).tiles = profileContent s.store.image p s.tiles :=
          profileContent_congr _ p done.length done.scan
        rw [persist, adoptRecord_persist, done.store]
        have image : u.store.image = s.store.image := rfl
        rw [image, content]
        generalize contentWrites s.store.image (profileContent s.store.image p s.tiles) = w
        refine ⟨fun some => ?_, fun none => ?_⟩
        · rw [placeJob_some some]
          exact ⟨main, rfl, rfl⟩
        · rw [placeJob_none none]
          exact ⟨Window.finish_main (c := .adoptProfile) main, rfl, rfl⟩
      · exact ((only.mono (by decide)).trans ((onlyIn_adopt p u).mono (by decide))).trans
          (recorded.only.mono (by decide))

end Sys2Proof.Machine
end

section
/-! The visible frames in chain order (R54, R56, R58 to R60, R62, R63). -/

set_option Elab.async false

namespace Sys2Proof.Machine

/-! ## What stands ahead of an entry -/

/-- What stands ahead of the entry at a position, the entries before it evaluated in order. -/
def standsAhead (floor : Nat) : Ahead → List Entry → Nat → Ahead
  | a, _, 0 => a
  | a, [], _ + 1 => a
  | a, e :: rest, i + 1 => standsAhead floor ((evalEntry floor a e).ahead a) rest i

theorem standsAhead_zero (floor : Nat) (a : Ahead) (l : List Entry) : standsAhead floor a l 0 = a := by
  cases l <;> rfl

theorem evalFrom_getElem (floor : Nat) (a : Ahead) (l : List Entry) (i : Nat) :
    (evalFrom floor a l)[i]? = l[i]?.map (evalEntry floor (standsAhead floor a l i)) := by
  induction l generalizing a i with
  | nil => rfl
  | cons e rest ih =>
    cases i with
    | zero => rfl
    | succ i => exact ih _ i

theorem standsAhead_succ {floor : Nat} {a : Ahead} {l : List Entry} {i : Nat} {v : Eval}
    (there : (evalFrom floor a l)[i]? = some v) :
    standsAhead floor a l (i + 1) = v.ahead (standsAhead floor a l i) := by
  induction l generalizing a i with
  | nil => cases there
  | cons e rest ih =>
    cases i with
    | zero =>
      cases there
      cases rest <;> rfl
    | succ i => exact ih there

theorem evalFrom_entries (floor : Nat) (a : Ahead) (l : List Entry) : (evalFrom floor a l).map (·.entry) = l := by
  induction l generalizing a with
  | nil => rfl
  | cons e rest ih => exact congrArg (e :: ·) (ih _)

theorem sceneEval_iff (v : Eval) : SceneEval v ↔ v.entry.cue.body.isScene = true := by
  unfold SceneEval
  cases v.entry.cue.body with
  | scene l => exact iff_of_true ⟨l, rfl⟩ rfl
  | trim | clock | mark => exact iff_of_false (fun ⟨_, h⟩ => nomatch h) Bool.false_ne_true

theorem Eval.ahead_scene {v : Eval} (scene : SceneEval v) (a : Ahead) :
    (v.ahead a).sceneV = v.vEff ∧
    (v.ahead a).ref = match v.vEff with | some n => sceneEnd n v.entry.cue.dwell | none => .unknown := by
  rw [sceneEval_iff] at scene
  exact ⟨if_pos scene, if_pos scene⟩

theorem Eval.ahead_other {v : Eval} (other : ¬ SceneEval v) (a : Ahead) :
    (v.ahead a).sceneV = a.sceneV ∧ (v.ahead a).ref = a.ref := by
  rw [sceneEval_iff] at other
  exact ⟨if_neg other, if_neg other⟩

theorem evalEntry_vEff (floor : Nat) (a : Ahead) (e : Entry) :
    (evalEntry floor a e).vEff =
      if a.resolved then (e.derived a.ref).map (effectiveFrame floor a e.cue.body.isScene) else none := rfl

/-- The evaluated entry at `j` is the nearest scene ahead of position `i`. -/
def Nearest (l : List Eval) (i j : Nat) (u : Eval) : Prop :=
  j < i ∧ l[j]? = some u ∧ SceneEval u ∧ ∀ k w, j < k → k < i → l[k]? = some w → ¬ SceneEval w

/-- No evaluated entry ahead of position `i` is a scene. -/
def NoScene (l : List Eval) (i : Nat) : Prop := ∀ j u, j < i → l[j]? = some u → ¬ SceneEval u

theorem nearest_or_none (l : List Eval) (i : Nat) : NoScene l i ∨ ∃ j u, Nearest l i j u := by
  induction i with
  | zero => exact .inl fun _ _ before => absurd before (Nat.not_lt_zero _)
  | succ i ih =>
    by_cases here : ∃ v, l[i]? = some v ∧ SceneEval v
    · obtain ⟨v, there, scene⟩ := here
      exact .inr ⟨i, v, Nat.lt_succ_self i, there, scene, fun k _ after before => absurd before (by omega)⟩
    · have other (w : Eval) (there : l[i]? = some w) : ¬ SceneEval w := fun scene => here ⟨w, there, scene⟩
      rcases ih with none | ⟨j, u, before, there, scene, last⟩
      · refine .inl fun j u before there => ?_
        rcases Nat.lt_succ_iff_lt_or_eq.1 before with before | rfl
        · exact none j u before there
        · exact other u there
      · refine .inr ⟨j, u, Nat.lt_succ_of_lt before, there, scene, fun k w after before at_k => ?_⟩
        rcases Nat.lt_succ_iff_lt_or_eq.1 before with before | rfl
        · exact last k w after before at_k
        · exact other w at_k

/-- What stands ahead of position `i` in the evaluated entries, in R56's, R58's and R59's own terms. -/
structure AheadOf (c : Scheduler) (l : List Eval) (i : Nat) (a : Ahead) : Prop where
  oldest : i = 0 → a.lastV = c.lastFrame
  previous : ∀ j u, i = j + 1 → l[j]? = some u → a.lastV = u.vEff
  nearest : ∀ j u, Nearest l i j u → a.sceneV = u.vEff ∧
    a.ref = match u.vEff with | some n => sceneEnd n u.entry.cue.dwell | none => .unknown
  committed : NoScene l i → a.sceneV = c.before.sceneV ∧ a.ref = c.before.ref
  resolved : a.resolved = true ↔ ∀ j u, j < i → l[j]? = some u → u.vEff ≠ none

theorem aheadOf_zero (c : Scheduler) (l : List Eval) : AheadOf c l 0 c.before where
  oldest _ := rfl
  previous _ _ h := nomatch h
  nearest _ _ h := absurd h.1 (Nat.not_lt_zero _)
  committed _ := ⟨rfl, rfl⟩
  resolved := iff_of_true rfl fun _ _ before => absurd before (Nat.not_lt_zero _)

theorem AheadOf.succ {c : Scheduler} {l : List Eval} {i : Nat} {a : Ahead} {v : Eval} (h : AheadOf c l i a)
    (there : l[i]? = some v) (evaluated : v.vEff ≠ none → a.resolved = true) : AheadOf c l (i + 1) (v.ahead a) := by
  refine ⟨fun zero => (nomatch zero), fun j u here there' => ?_, fun j u near => ?_, fun none => ?_, ?_⟩
  · cases here
    rw [Option.some.inj (there'.symm.trans there)]
    rfl
  · obtain ⟨before, there', scene, last⟩ := near
    rcases Nat.lt_succ_iff_lt_or_eq.1 before with before | rfl
    · obtain ⟨sceneV, ref⟩ := v.ahead_other (last i v before (Nat.lt_succ_self i) there) a
      rw [sceneV, ref]
      exact h.nearest j u ⟨before, there', scene, fun k w after earlier => last k w after (Nat.lt_succ_of_lt earlier)⟩
    · obtain rfl := Option.some.inj (there'.symm.trans there)
      exact u.ahead_scene scene a
  · obtain ⟨sceneV, ref⟩ := v.ahead_other (none i v (Nat.lt_succ_self i) there) a
    rw [sceneV, ref]
    exact h.committed fun j u before => none j u (Nat.lt_succ_of_lt before)
  · show v.vEff.isSome = true ↔ _
    rw [← Option.ne_none_iff_isSome]
    refine ⟨fun some j u before there' => ?_, fun all => all i v (Nat.lt_succ_self i) there⟩
    rcases Nat.lt_succ_iff_lt_or_eq.1 before with before | rfl
    · exact h.resolved.1 (evaluated some) j u before there'
    · rw [Option.some.inj (there'.symm.trans there)]
      exact some

/-! ## The evaluated entries of the queue -/

/-- What stands ahead of the `i`-th evaluated entry. -/
def State.aheadAt (s : State) (i : Nat) : Ahead :=
  standsAhead (s.now + s.horizon) s.scheduler.before (s.scheduler.queue.filter (·.departing.isNone)) i

section
variable {s : State} {i : Nat} {v : Eval} (there : s.evals[i]? = some v)
include there

theorem eval_eq : v = evalEntry (s.now + s.horizon) (s.aheadAt i) v.entry := by
  have found := evalFrom_getElem (s.now + s.horizon) s.scheduler.before
    (s.scheduler.queue.filter (·.departing.isNone)) i
  have same := found.symm.trans there
  obtain ⟨e, -, rfl⟩ := Option.map_eq_some_iff.1 same
  rfl

theorem eval_resolved (some : v.vEff ≠ none) : (s.aheadAt i).resolved = true := by
  rw [eval_eq there, evalEntry_vEff] at some
  by_contra unresolved
  exact some (if_neg unresolved)

theorem aheadOf_aheadAt : AheadOf s.scheduler s.evals i (s.aheadAt i) := by
  induction i generalizing v with
  | zero =>
    rw [State.aheadAt, standsAhead_zero]
    exact aheadOf_zero _ _
  | succ i ih =>
    have inside : i < s.evals.length := by
      have := (List.getElem?_eq_some_iff.1 there).1
      omega
    have before : s.evals[i]? = some s.evals[i] := List.getElem?_eq_getElem inside
    have next : s.aheadAt (i + 1) = s.evals[i].ahead (s.aheadAt i) := standsAhead_succ before
    rw [next]
    exact (ih before).succ before (eval_resolved before)

theorem eval_ref : v.ref = (s.aheadAt i).ref := congrArg Eval.ref (eval_eq there)

theorem eval_derived : v.derived = v.entry.derived v.ref := by
  rw [eval_ref there]
  exact congrArg Eval.derived (eval_eq there)

theorem eval_vEff : v.vEff = if (s.aheadAt i).resolved then
    v.derived.map (effectiveFrame (s.now + s.horizon) (s.aheadAt i) v.entry.cue.body.isScene) else none := by
  rw [eval_derived there, eval_ref there]
  exact congrArg Eval.vEff (eval_eq there)

theorem committed_sceneV {c : LastScene} (last : s.scheduler.lastScene = some c) (noScene : NoScene s.evals i) :
    (s.aheadAt i).sceneV = some c.visible := by
  rw [((aheadOf_aheadAt there).committed noScene).1, Scheduler.before]
  exact congrArg (Option.map LastScene.visible) last

/-- The reference of an entry (R56, R58). -/
theorem eval_measures : MeasuresFrom s i v.ref := by
  have ahead := aheadOf_aheadAt there
  rw [eval_ref there]
  refine ⟨fun j u before at_j scene last => ?_, fun noScene => ?_⟩
  · obtain ⟨-, ref⟩ := ahead.nearest j u ⟨before, at_j, scene, last⟩
    rw [ref]
    cases u.vEff with
    | none => rfl
    | some n => rfl
  · obtain ⟨-, ref⟩ := ahead.committed noScene
    rw [ref, Scheduler.before]
    cases s.scheduler.lastScene with
    | none => rfl
    | some l =>
      show l.refEnd = match l.dwellEnd with | none => .opened l.visible | some d => .frame d
      unfold LastScene.refEnd
      cases l.dwellEnd with
      | none => rfl
      | some d => rfl

/-- An entry is unresolved while its derived V is missing or an entry ahead of it is unresolved (R60). -/
theorem eval_unresolved_iff :
    v.vEff = none ↔ v.derived = none ∨ ∃ j u, j < i ∧ s.evals[j]? = some u ∧ u.vEff = none := by
  have ahead := aheadOf_aheadAt there
  rw [eval_vEff there]
  by_cases resolved : (s.aheadAt i).resolved = true
  · have all := ahead.resolved.1 resolved
    rw [if_pos resolved, Option.map_eq_none_iff]
    exact ⟨.inl, fun h => h.elim id fun ⟨j, u, before, at_j, missing⟩ => absurd missing (all j u before at_j)⟩
  · rw [if_neg resolved]
    refine iff_of_true rfl (.inr ?_)
    rw [ahead.resolved] at resolved
    push Not at resolved
    exact resolved

end

/-! ## Derived visible frames (R55, R63) -/

theorem derived_after {e : Entry} (mode : e.cue.mode = .after) (ref : RefEnd) :
    (∀ n, ref = .frame n → e.derived ref = some (n : Int)) ∧ ((∀ n, ref ≠ .frame n) → e.derived ref = none) := by
  unfold Entry.derived
  rw [mode]
  cases ref with
  | frame n => exact ⟨fun m same => by cases same; rfl, fun none => absurd rfl (none n)⟩
  | opened v => exact ⟨fun m same => (nomatch same), fun _ => rfl⟩
  | unknown => exact ⟨fun m same => (nomatch same), fun _ => rfl⟩

theorem derived_atTime {e : Entry} (mode : e.cue.mode = .atTime) (ref : RefEnd) : e.derived ref = e.target := by
  unfold Entry.derived
  rw [mode]

theorem derived_event {e : Entry} (mode : e.cue.mode = .onTrigger ∨ e.cue.mode = .onPulse) (ref : RefEnd) :
    e.derived ref = e.eventFrame.map (fun n => (n : Int)) := by
  unfold Entry.derived
  rcases mode with mode | mode <;> rw [mode]

theorem derived_event_eq_none_iff {e : Entry} (mode : e.cue.mode = .onTrigger ∨ e.cue.mode = .onPulse)
    (ref : RefEnd) : e.derived ref = none ↔ e.eventFrame = none := by
  rw [derived_event mode]
  cases e.eventFrame with
  | none => exact iff_of_true rfl rfl
  | some n => exact iff_of_false (fun missing => nomatch missing) fun missing => nomatch missing

/-- What a derived V is missing for, mode by mode. -/
theorem derived_eq_none_iff (e : Entry) (ref : RefEnd) : e.derived ref = none ↔
    (e.cue.mode = .after ∧ ∀ n, ref ≠ .frame n) ∨ (e.cue.mode = .atTime ∧ e.target = none) ∨
    ((e.cue.mode = .onTrigger ∨ e.cue.mode = .onPulse) ∧ e.eventFrame = none) := by
  cases mode : e.cue.mode with
  | after =>
    obtain ⟨ended, open_⟩ := derived_after mode ref
    have missing : e.derived ref = none ↔ ∀ n, ref ≠ .frame n :=
      ⟨fun missing n same => (nomatch (ended n same).symm.trans missing), open_⟩
    simp [missing]
  | atTime => simp [derived_atTime mode]
  | onTrigger => simp [derived_event_eq_none_iff (.inl mode)]
  | onPulse => simp [derived_event_eq_none_iff (.inr mode)]

/-! ## The effective visible frame (R59) -/

section
variable (floor : Nat) (a : Ahead) (scene : Bool) (d : Int)

theorem floor_le_effectiveFrame : floor ≤ effectiveFrame floor a scene d :=
  (le_max_right _ _).trans (le_max_right _ _)

theorem derived_le_effectiveFrame : d ≤ (effectiveFrame floor a scene d : Int) := by
  have : d.toNat ≤ effectiveFrame floor a scene d := (le_max_left _ _).trans (le_max_left _ _)
  omega

theorem lastV_le_effectiveFrame {n : Nat} (last : a.lastV = some n) : n ≤ effectiveFrame floor a scene d := by
  have : a.lastV.getD 0 ≤ effectiveFrame floor a scene d := (le_max_right _ _).trans (le_max_left _ _)
  rwa [last] at this

theorem sceneV_lt_effectiveFrame {n : Nat} (last : a.sceneV = some n) : n < effectiveFrame floor a true d := by
  have : (a.sceneV.map (· + 1)).getD 0 ≤ effectiveFrame floor a true d :=
    (le_max_left _ _).trans (le_max_right _ _)
  rwa [last] at this

/-- The effective visible frame is one of the terms of R59; the floor is above 0, so a missing term is never it. -/
theorem effectiveFrame_source {floor : Nat} (positive : 0 < floor) :
    effectiveFrame floor a scene d = floor ∨ d = (effectiveFrame floor a scene d : Int) ∨
    a.lastV = some (effectiveFrame floor a scene d) ∨
    (scene = true ∧ ∃ n, a.sceneV = some n ∧ effectiveFrame floor a scene d = n + 1) := by
  have above := floor_le_effectiveFrame floor a scene d
  have source : effectiveFrame floor a scene d = d.toNat ∨ effectiveFrame floor a scene d = a.lastV.getD 0 ∨
      effectiveFrame floor a scene d = (if scene then (a.sceneV.map (· + 1)).getD 0 else 0) ∨
      effectiveFrame floor a scene d = floor := by
    unfold effectiveFrame
    omega
  generalize effectiveFrame floor a scene d = m at *
  rcases source with derived | last | last | floor
  · exact .inr (.inl (by omega))
  · refine .inr (.inr (.inl ?_))
    cases there : a.lastV with
    | none =>
      rw [there, Option.getD_none] at last
      omega
    | some n =>
      rw [there, Option.getD_some] at last
      rw [last]
  · refine .inr (.inr (.inr ?_))
    cases scene with
    | false =>
      rw [if_neg Bool.false_ne_true] at last
      omega
    | true =>
      rw [if_pos rfl] at last
      cases there : a.sceneV with
      | none =>
        rw [there, Option.map_none, Option.getD_none] at last
        omega
      | some n =>
        rw [there] at last
        exact ⟨rfl, n, rfl, last⟩
  · exact .inl floor

end

/-! ## A resolved entry among the others -/

section
variable {s : State} {i : Nat} {v : Eval} {m : Nat} (there : s.evals[i]? = some v) (visible : v.vEff = some m)
include there visible

theorem eval_effectiveFrame : ∃ d, v.derived = some d ∧
    effectiveFrame (s.now + s.horizon) (s.aheadAt i) v.entry.cue.body.isScene d = m := by
  have given := eval_vEff there
  have resolved := eval_resolved there fun missing => nomatch missing.symm.trans visible
  rw [visible, if_pos resolved] at given
  exact Option.map_eq_some_iff.1 given.symm

theorem eval_floor_le : s.now + s.horizon ≤ m := by
  obtain ⟨d, -, rfl⟩ := eval_effectiveFrame there visible
  exact floor_le_effectiveFrame _ _ _ _

theorem eval_derived_le {d : Int} (derived : v.derived = some d) : d ≤ (m : Int) := by
  obtain ⟨d', derived', rfl⟩ := eval_effectiveFrame there visible
  obtain rfl := Option.some.inj (derived.symm.trans derived')
  exact derived_le_effectiveFrame _ _ _ _

theorem eval_slip {d : Int} (derived : v.derived = some d) : (v.slip : Int) = min ((m : Int) - d) 65535 := by
  have below := eval_derived_le there visible derived
  have slip : v.slip = saturateSlip ((m : Int) - d) := by
    unfold Eval.slip
    rw [visible, derived]
  rw [slip, saturateSlip]
  omega

theorem eval_lastV_le {n : Nat} (last : (s.aheadAt i).lastV = some n) : n ≤ m := by
  obtain ⟨d, -, rfl⟩ := eval_effectiveFrame there visible
  exact lastV_le_effectiveFrame _ _ _ _ last

theorem eval_sceneV_lt (scene : SceneEval v) {n : Nat} (last : (s.aheadAt i).sceneV = some n) : n < m := by
  obtain ⟨d, -, rfl⟩ := eval_effectiveFrame there visible
  rw [(sceneEval_iff v).1 scene]
  exact sceneV_lt_effectiveFrame _ _ _ last

theorem eval_ahead_visible {j : Nat} {u : Eval} (before : j < i) (at_j : s.evals[j]? = some u) :
    ∃ n, u.vEff = some n := by
  have resolved := eval_resolved there fun missing => nomatch missing.symm.trans visible
  exact Option.ne_none_iff_exists'.1 ((aheadOf_aheadAt there).resolved.1 resolved j u before at_j)

/-- An entry becomes visible no earlier than any entry ahead of it. -/
theorem eval_ahead_le {j n : Nat} {u : Eval} (before : j < i) (at_j : s.evals[j]? = some u) (at_n : u.vEff = some n) :
    n ≤ m := by
  induction i generalizing v m with
  | zero => exact absurd before (Nat.not_lt_zero j)
  | succ k ih =>
    have inside : k < s.evals.length := by
      have := (List.getElem?_eq_some_iff.1 there).1
      omega
    have at_k : s.evals[k]? = some s.evals[k] := List.getElem?_eq_getElem inside
    obtain ⟨p, at_p⟩ := eval_ahead_visible there visible (Nat.lt_succ_self k) at_k
    have last := (aheadOf_aheadAt there).previous k _ rfl at_k
    have previous : p ≤ m := eval_lastV_le there visible (last.trans at_p)
    rcases Nat.lt_succ_iff_lt_or_eq.1 before with before | rfl
    · exact (ih at_k at_p before).trans previous
    · obtain rfl := Option.some.inj (at_j.symm.trans at_k)
      obtain rfl := Option.some.inj (at_n.symm.trans at_p)
      exact previous

/-- A scene becomes visible after every scene ahead of it: after the nearest one, and so after those before it. -/
theorem eval_scene_ahead_lt {j n : Nat} {u : Eval} (before : j < i) (at_j : s.evals[j]? = some u)
    (at_n : u.vEff = some n) (sceneAhead : SceneEval u) (scene : SceneEval v) : n < m := by
  rcases nearest_or_none s.evals i with noScene | ⟨k, w, near⟩
  · exact absurd sceneAhead (noScene j u before at_j)
  · obtain ⟨k_before, at_k, -, last⟩ := id near
    obtain ⟨q, at_q⟩ := eval_ahead_visible there visible k_before at_k
    have nearer := ((aheadOf_aheadAt there).nearest k w near).1
    have after : q < m := eval_sceneV_lt there visible scene (nearer.trans at_q)
    rcases lt_trichotomy j k with earlier | rfl | later
    · exact (eval_ahead_le at_k at_q earlier at_j at_n).trans_lt after
    · obtain rfl := Option.some.inj (at_j.symm.trans at_k)
      obtain rfl := Option.some.inj (at_n.symm.trans at_q)
      exact after
    · exact absurd sceneAhead (last j u later before at_j)

theorem eval_lastFrame_le {f : Nat} (last : s.scheduler.lastFrame = some f) (oldest : i = 0) : f ≤ m :=
  eval_lastV_le there visible (((aheadOf_aheadAt there).oldest oldest).trans last)

/-- The visible frame of a resolved entry is one of the terms of R59. -/
theorem eval_source : m = s.now + s.horizon ∨ v.derived = some (m : Int) ∨
    (i = 0 ∧ s.scheduler.lastFrame = some m) ∨
    (SceneEval v ∧ ∃ c, s.scheduler.lastScene = some c ∧ m = c.visible + 1) ∨
    (∃ j u, j < i ∧ s.evals[j]? = some u ∧
      (u.vEff = some m ∨ (SceneEval u ∧ SceneEval v ∧ ∃ n, u.vEff = some n ∧ m = n + 1))) := by
  obtain ⟨d, derived, rfl⟩ := eval_effectiveFrame there visible
  have ahead := aheadOf_aheadAt there
  have positive : 0 < s.now + s.horizon := Nat.lt_of_lt_of_le (Nat.succ_pos s.prof.lmax) (Nat.le_add_left _ _)
  rcases effectiveFrame_source (s.aheadAt i) v.entry.cue.body.isScene d positive with
    floor | same | last | ⟨isScene, n, last, next⟩
  · exact .inl floor
  · exact .inr (.inl (derived.trans (congrArg some same)))
  · cases i with
    | zero => exact .inr (.inr (.inl ⟨rfl, (ahead.oldest rfl).symm.trans last⟩))
    | succ k =>
      have inside : k < s.evals.length := by
        have := (List.getElem?_eq_some_iff.1 there).1
        omega
      have at_k : s.evals[k]? = some s.evals[k] := List.getElem?_eq_getElem inside
      exact .inr (.inr (.inr (.inr ⟨k, _, Nat.lt_succ_self k, at_k,
        .inl ((ahead.previous k _ rfl at_k).symm.trans last)⟩)))
  · have scene : SceneEval v := (sceneEval_iff v).2 isScene
    rcases nearest_or_none s.evals i with noScene | ⟨j, u, near⟩
    · have committed := (ahead.committed noScene).1.symm.trans last
      obtain ⟨c, lastScene, rfl⟩ := Option.map_eq_some_iff.1 committed
      exact .inr (.inr (.inr (.inl ⟨scene, c, lastScene, next⟩)))
    · have at_n := (ahead.nearest j u near).1.symm.trans last
      obtain ⟨before, at_j, sceneAhead, -⟩ := near
      exact .inr (.inr (.inr (.inr ⟨j, u, before, at_j, .inr ⟨sceneAhead, scene, n, at_n, next⟩⟩)))

end

/-- Settles O20: what stands ahead of each evaluated entry is read off the entries before it. -/
theorem visibleFramesFollowChainOrder : Obligations.VisibleFramesFollowChainOrder := by
  refine ⟨fun s => evalFrom_entries _ _ _, fun s i v there => ?_, fun s i v m there visible => ?_⟩
  · have derived := eval_derived there
    refine ⟨eval_measures there, fun mode => ?_, fun mode => ?_, fun mode => ?_, ?_⟩
    · rw [derived]
      exact derived_after mode v.ref
    · rw [derived]
      exact derived_atTime mode v.ref
    · rw [derived]
      exact derived_event mode v.ref
    · rw [eval_unresolved_iff there, derived, derived_eq_none_iff, or_assoc, or_assoc]
  · refine ⟨eval_floor_le there visible, fun d derived => ?_, fun f => eval_lastFrame_le there visible,
      fun c last scene noScene => ?_, fun j u n before at_j at_n => ?_, eval_source there visible⟩
    · exact ⟨eval_derived_le there visible derived, eval_slip there visible derived⟩
    · exact eval_sceneV_lt there visible scene (committed_sceneV there last noScene)
    · exact ⟨eval_ahead_le there visible before at_j at_n, eval_scene_ahead_lt there visible before at_j at_n⟩

end Sys2Proof.Machine
end
